-- ==== Sys2Proof/Word.lean ====
section
/-! DEFINITION. The word types of the core (10_state.md R20, R25): 32-bit registers and addresses, the byte as the unit of memory. -/

namespace Sys2Proof

/-- A 32-bit value: a register, an address, an instruction word. -/
abbrev Word := BitVec 32

/-- A 16-bit parcel of an instruction, or a halfword of data. -/
abbrev Half := BitVec 16

/-- One byte, the unit of memory. -/
abbrev Byte := BitVec 8

/-- A 5-bit register field: names any of x0 to x31 (10 R21). -/
abbrev Reg := BitVec 5

/-- A 3-bit register field of a compressed instruction: names x8 to x15 (44 R341). -/
abbrev CReg := BitVec 3

/-- A 12-bit CSR number (10 R40). -/
abbrev CsrNum := BitVec 12

/-- An interrupt number, 0 to 255 (60 R503). -/
abbrev IrqNum := BitVec 8

end Sys2Proof
end

