-- ==== Sys2Proof/Config.lean ====
section
/-! DEFINITION. What an implementation fixes (the parameters of 00_scope.md R8) and the free values of the model.

A parameter is plain data: a `Config` is carried in the state, no step changes it, and a statement for every state is a
statement for every value of every parameter. The values in `Config.default` are those of `State.reset`; each has a row in
the assumption log. A free value (the spec's `draw`) is an opaque constant applied to the state's draw counter. -/

namespace Sys2Proof

/-- The member of the family, `VARIANT` (00 R1). -/
inductive Variant where
  | v3a
  | v3b
  | v3c
deriving DecidableEq, Repr

/-- V3A against V3B/C: the two groups the rules distinguish. -/
def Variant.isV3A : Variant → Bool
  | .v3a => true
  | .v3b => false
  | .v3c => false

/-- What a region of `MEMMAP` holds (92 D4). An address in no region answers with a bus error. -/
inductive RegionKind where
  | ram
  | rom
  | device
deriving DecidableEq, Repr

/-- One region of `MEMMAP`: `size` bytes from `base`. -/
structure Region where
  base : Nat
  size : Nat
  kind : RegionKind
deriving DecidableEq, Repr

/-- `MISALIGNED_POLICY` (92 D2, 20 R104). -/
inductive MisalignedPolicy where
  | refuse
  | trap
  | split
deriving DecidableEq, Repr

/-- `B_SUBSET`: which sub-extensions "B" means (92 D5). -/
structure BSubset where
  zba : Bool
  zbb : Bool
  zbs : Bool
deriving DecidableEq, Repr

/-- The eight XW instructions (46 R441 to R448). -/
inductive XwOp where
  | lbu
  | lhu
  | sb
  | sh
  | lbusp
  | lhusp
  | sbsp
  | shsp
deriving DecidableEq, Repr

/-- A register field of an XW row: its lowest bit, and whether it is a 3-bit field naming x8 to x15 (46 R440). -/
structure XwField where
  lo : Nat
  short : Bool
deriving DecidableEq, Repr

/-- One row of `XW_DECODE` (46 R440): `match`, `mask`, the data and base register fields, and the assembly of `uimm` as
pairs (instruction bit, offset bit). The base field is not used by the four sp-relative instructions. -/
structure XwRow where
  op : XwOp
  pattern : Half
  mask : Half
  data : XwField
  base : XwField
  imm : List (Nat × Nat)
deriving DecidableEq, Repr

/-- `V3A_VTF_CHANNEL_ON` (92 D28): the spec's default, or a list of the channel numbers that switch a channel on. -/
inductive VtfRule where
  | programmable
  | numbers (on : List IrqNum)
deriving DecidableEq, Repr

/-- The parameters of 00_scope.md R8. -/
structure Config where
  variant : Variant
  resetPc : Word
  memmap : List Region
  misaligned : MisalignedPolicy
  bSubset : BSubset
  xw : List XwRow
  misaValue : Word
  coreMajor : BitVec 4
  coreMinor : BitVec 4
  /-- `RESERVATION_GRANULE` is `2 ^ granuleLog` bytes; the spec wants at least 4, a power of two. -/
  granuleLog : Nat
  debuggerPresent : Bool
  pendClearOnEntry : Bool
  vtfRule : VtfRule
  /-- `hartinfo.dataaddr`. -/
  dataAddr : BitVec 12
  /-- The model's own: the address at which the program buffer appears in `pc` while it runs (log 38). -/
  progbufBase : Word
deriving DecidableEq, Repr

/-- The parameter values of `State.reset`; log 1 to log 13 and log 38 give each its reason. DESIGN CHOICE. -/
def Config.default : Config where
  variant := .v3a
  resetPc := 0x20000000#32
  memmap := [⟨0x00000000, 0xE0000000, .ram⟩, ⟨0xE0010000, 0x1FFF0000, .ram⟩]
  misaligned := .refuse
  bSubset := ⟨true, true, true⟩
  xw := []
  misaValue := 0x40101106#32
  coreMajor := 1#4
  coreMinor := 0#4
  granuleLog := 2
  debuggerPresent := false
  pendClearOnEntry := true
  vtfRule := .programmable
  dataAddr := 0x000#12
  progbufBase := 0xE0000100#32

/-- Version 1.0 and later (60 R561, 92 D31): the major digit decides. -/
def Config.fromV1 (c : Config) : Bool := decide (1 ≤ c.coreMajor.toNat)

/-- What happens on its own between two steps: one SysTick tick (61 R605), or the oldest outstanding device write takes
effect (20 R122). -/
inductive Chore where
  | tick
  | drain
deriving DecidableEq, Repr

/-- The choices one instruction boundary leaves open: the chores that happen, whether an eligible interrupt is delayed
(60 R512), whether a sleeping core wakes without a cause (92 D15). -/
structure Sched where
  chores : List Chore
  defer : Bool
  wake : Bool
deriving DecidableEq, Repr, Inhabited

/-- A free 32-bit value for each draw. No body: nothing can be proved of its values (log 19). -/
opaque Config.freeWord : Nat → Word

/-- A free choice between two values for each draw (log 19). -/
opaque Config.freeBool : Nat → Bool

/-- A free choice of a position for each draw (log 19, log 25). -/
opaque Config.freeNat : Nat → Nat

/-- The free choices of a boundary for which the environment gives none (log 21 to log 23). -/
opaque Config.freeSched : Nat → Sched

end Sys2Proof
end

