-- ==== Sys2Proof/Syntax.lean ====
section
/-! DEFINITION. The instructions (30_encoding.md R160): one constructor for each of the 132 rows of the opcode table.

Immediates are held as the rules assemble them (30 R152, R155): a branch offset is its whole 13-bit value with bit 0 clear,
a compressed offset its whole scaled value; `lui`, `auipc` and `c.lui` hold the field that goes to bits 31 down to 12. The
fields `fence`, `fence.i` and the atomics ignore (30 R158, 43 R314) are kept, so that an encoding is never lost. Operands of
the XW instructions are full register numbers and a 32-bit offset, since `XW_DECODE` may give either (46 R440). -/

namespace Sys2Proof

/-- The instructions of the QingKe V3 family, in the order of the opcode table. -/
inductive Instr where
  /-- `lui`, rule R201. -/
  | lui (rd : Reg) (imm : BitVec 20)
  /-- `auipc`, rule R202. -/
  | auipc (rd : Reg) (imm : BitVec 20)
  /-- `jal`, rule R203. -/
  | jal (rd : Reg) (imm : BitVec 21)
  /-- `jalr`, rule R204. -/
  | jalr (rd rs1 : Reg) (imm : BitVec 12)
  /-- `beq`, rule R205. -/
  | beq (rs1 rs2 : Reg) (imm : BitVec 13)
  /-- `bne`, rule R206. -/
  | bne (rs1 rs2 : Reg) (imm : BitVec 13)
  /-- `blt`, rule R207. -/
  | blt (rs1 rs2 : Reg) (imm : BitVec 13)
  /-- `bge`, rule R208. -/
  | bge (rs1 rs2 : Reg) (imm : BitVec 13)
  /-- `bltu`, rule R209. -/
  | bltu (rs1 rs2 : Reg) (imm : BitVec 13)
  /-- `bgeu`, rule R210. -/
  | bgeu (rs1 rs2 : Reg) (imm : BitVec 13)
  /-- `lb`, rule R211. -/
  | lb (rd rs1 : Reg) (imm : BitVec 12)
  /-- `lh`, rule R212. -/
  | lh (rd rs1 : Reg) (imm : BitVec 12)
  /-- `lw`, rule R213. -/
  | lw (rd rs1 : Reg) (imm : BitVec 12)
  /-- `lbu`, rule R214. -/
  | lbu (rd rs1 : Reg) (imm : BitVec 12)
  /-- `lhu`, rule R215. -/
  | lhu (rd rs1 : Reg) (imm : BitVec 12)
  /-- `sb`, rule R216. -/
  | sb (rs2 rs1 : Reg) (imm : BitVec 12)
  /-- `sh`, rule R217. -/
  | sh (rs2 rs1 : Reg) (imm : BitVec 12)
  /-- `sw`, rule R218. -/
  | sw (rs2 rs1 : Reg) (imm : BitVec 12)
  /-- `addi`, rule R219. -/
  | addi (rd rs1 : Reg) (imm : BitVec 12)
  /-- `slti`, rule R220. -/
  | slti (rd rs1 : Reg) (imm : BitVec 12)
  /-- `sltiu`, rule R221. -/
  | sltiu (rd rs1 : Reg) (imm : BitVec 12)
  /-- `xori`, rule R222. -/
  | xori (rd rs1 : Reg) (imm : BitVec 12)
  /-- `ori`, rule R223. -/
  | ori (rd rs1 : Reg) (imm : BitVec 12)
  /-- `andi`, rule R224. -/
  | andi (rd rs1 : Reg) (imm : BitVec 12)
  /-- `slli`, rule R225. -/
  | slli (rd rs1 : Reg) (shamt : BitVec 5)
  /-- `srli`, rule R226. -/
  | srli (rd rs1 : Reg) (shamt : BitVec 5)
  /-- `srai`, rule R227. -/
  | srai (rd rs1 : Reg) (shamt : BitVec 5)
  /-- `add`, rule R228. -/
  | add (rd rs1 rs2 : Reg)
  /-- `sub`, rule R229. -/
  | sub (rd rs1 rs2 : Reg)
  /-- `sll`, rule R230. -/
  | sll (rd rs1 rs2 : Reg)
  /-- `slt`, rule R231. -/
  | slt (rd rs1 rs2 : Reg)
  /-- `sltu`, rule R232. -/
  | sltu (rd rs1 rs2 : Reg)
  /-- `xor`, rule R233. -/
  | xor (rd rs1 rs2 : Reg)
  /-- `srl`, rule R234. -/
  | srl (rd rs1 rs2 : Reg)
  /-- `sra`, rule R235. -/
  | sra (rd rs1 rs2 : Reg)
  /-- `or`, rule R236. -/
  | or (rd rs1 rs2 : Reg)
  /-- `and`, rule R237. -/
  | and (rd rs1 rs2 : Reg)
  /-- `fence`, rule R238. -/
  | fence (fm pred succ : BitVec 4) (rs1 rd : Reg)
  /-- `ecall`, rule R239. -/
  | ecall
  /-- `ebreak`, rule R240. -/
  | ebreak
  /-- `csrrw`, rule R263. -/
  | csrrw (rd : Reg) (csr : CsrNum) (rs1 : Reg)
  /-- `csrrs`, rule R264. -/
  | csrrs (rd : Reg) (csr : CsrNum) (rs1 : Reg)
  /-- `csrrc`, rule R265. -/
  | csrrc (rd : Reg) (csr : CsrNum) (rs1 : Reg)
  /-- `csrrwi`, rule R266. -/
  | csrrwi (rd : Reg) (csr : CsrNum) (uimm : BitVec 5)
  /-- `csrrsi`, rule R267. -/
  | csrrsi (rd : Reg) (csr : CsrNum) (uimm : BitVec 5)
  /-- `csrrci`, rule R268. -/
  | csrrci (rd : Reg) (csr : CsrNum) (uimm : BitVec 5)
  /-- `mret`, rule R269. -/
  | mret
  /-- `wfi`, rule R270. -/
  | wfi
  /-- `fence.i`, rule R271. -/
  | fenceI (imm : BitVec 12) (rs1 rd : Reg)
  /-- `mul`, rule R291. -/
  | mul (rd rs1 rs2 : Reg)
  /-- `mulh`, rule R292. -/
  | mulh (rd rs1 rs2 : Reg)
  /-- `mulhsu`, rule R293. -/
  | mulhsu (rd rs1 rs2 : Reg)
  /-- `mulhu`, rule R294. -/
  | mulhu (rd rs1 rs2 : Reg)
  /-- `div`, rule R295. -/
  | div (rd rs1 rs2 : Reg)
  /-- `divu`, rule R296. -/
  | divu (rd rs1 rs2 : Reg)
  /-- `rem`, rule R297. -/
  | rem (rd rs1 rs2 : Reg)
  /-- `remu`, rule R298. -/
  | remu (rd rs1 rs2 : Reg)
  /-- `lr.w`, rule R316. -/
  | lrW (rd rs1 : Reg) (aq rl : BitVec 1)
  /-- `sc.w`, rule R317. -/
  | scW (rd rs2 rs1 : Reg) (aq rl : BitVec 1)
  /-- `amoswap.w`, rule R318. -/
  | amoswapW (rd rs2 rs1 : Reg) (aq rl : BitVec 1)
  /-- `amoadd.w`, rule R319. -/
  | amoaddW (rd rs2 rs1 : Reg) (aq rl : BitVec 1)
  /-- `amoxor.w`, rule R320. -/
  | amoxorW (rd rs2 rs1 : Reg) (aq rl : BitVec 1)
  /-- `amoand.w`, rule R321. -/
  | amoandW (rd rs2 rs1 : Reg) (aq rl : BitVec 1)
  /-- `amoor.w`, rule R322. -/
  | amoorW (rd rs2 rs1 : Reg) (aq rl : BitVec 1)
  /-- `amomin.w`, rule R323. -/
  | amominW (rd rs2 rs1 : Reg) (aq rl : BitVec 1)
  /-- `amomax.w`, rule R324. -/
  | amomaxW (rd rs2 rs1 : Reg) (aq rl : BitVec 1)
  /-- `amominu.w`, rule R325. -/
  | amominuW (rd rs2 rs1 : Reg) (aq rl : BitVec 1)
  /-- `amomaxu.w`, rule R326. -/
  | amomaxuW (rd rs2 rs1 : Reg) (aq rl : BitVec 1)
  /-- `c.addi4spn`, rule R343. -/
  | cAddi4spn (rd : CReg) (uimm : BitVec 10)
  /-- `c.lw`, rule R344. -/
  | cLw (rd rs1 : CReg) (uimm : BitVec 7)
  /-- `c.sw`, rule R345. -/
  | cSw (rs2 rs1 : CReg) (uimm : BitVec 7)
  /-- `c.nop`, rule R346. -/
  | cNop (imm : BitVec 6)
  /-- `c.addi`, rule R347. -/
  | cAddi (rd : Reg) (imm : BitVec 6)
  /-- `c.jal`, rule R348. -/
  | cJal (imm : BitVec 12)
  /-- `c.li`, rule R349. -/
  | cLi (rd : Reg) (imm : BitVec 6)
  /-- `c.addi16sp`, rule R350. -/
  | cAddi16sp (imm : BitVec 10)
  /-- `c.lui`, rule R351. -/
  | cLui (rd : Reg) (imm : BitVec 6)
  /-- `c.srli`, rule R352. -/
  | cSrli (rd : CReg) (shamt : BitVec 5)
  /-- `c.srai`, rule R353. -/
  | cSrai (rd : CReg) (shamt : BitVec 5)
  /-- `c.andi`, rule R354. -/
  | cAndi (rd : CReg) (imm : BitVec 6)
  /-- `c.sub`, rule R355. -/
  | cSub (rd rs2 : CReg)
  /-- `c.xor`, rule R356. -/
  | cXor (rd rs2 : CReg)
  /-- `c.or`, rule R357. -/
  | cOr (rd rs2 : CReg)
  /-- `c.and`, rule R358. -/
  | cAnd (rd rs2 : CReg)
  /-- `c.j`, rule R359. -/
  | cJ (imm : BitVec 12)
  /-- `c.beqz`, rule R360. -/
  | cBeqz (rs1 : CReg) (imm : BitVec 9)
  /-- `c.bnez`, rule R361. -/
  | cBnez (rs1 : CReg) (imm : BitVec 9)
  /-- `c.slli`, rule R362. -/
  | cSlli (rd : Reg) (shamt : BitVec 5)
  /-- `c.lwsp`, rule R363. -/
  | cLwsp (rd : Reg) (uimm : BitVec 8)
  /-- `c.jr`, rule R364. -/
  | cJr (rs1 : Reg)
  /-- `c.mv`, rule R365. -/
  | cMv (rd rs2 : Reg)
  /-- `c.ebreak`, rule R366. -/
  | cEbreak
  /-- `c.jalr`, rule R367. -/
  | cJalr (rs1 : Reg)
  /-- `c.add`, rule R368. -/
  | cAdd (rd rs2 : Reg)
  /-- `c.swsp`, rule R369. -/
  | cSwsp (rs2 : Reg) (uimm : BitVec 8)
  /-- `sh1add`, rule R391. -/
  | sh1add (rd rs1 rs2 : Reg)
  /-- `sh2add`, rule R392. -/
  | sh2add (rd rs1 rs2 : Reg)
  /-- `sh3add`, rule R393. -/
  | sh3add (rd rs1 rs2 : Reg)
  /-- `andn`, rule R394. -/
  | andn (rd rs1 rs2 : Reg)
  /-- `orn`, rule R395. -/
  | orn (rd rs1 rs2 : Reg)
  /-- `xnor`, rule R396. -/
  | xnor (rd rs1 rs2 : Reg)
  /-- `clz`, rule R397. -/
  | clz (rd rs1 : Reg)
  /-- `ctz`, rule R398. -/
  | ctz (rd rs1 : Reg)
  /-- `cpop`, rule R399. -/
  | cpop (rd rs1 : Reg)
  /-- `max`, rule R400. -/
  | max (rd rs1 rs2 : Reg)
  /-- `maxu`, rule R401. -/
  | maxu (rd rs1 rs2 : Reg)
  /-- `min`, rule R402. -/
  | min (rd rs1 rs2 : Reg)
  /-- `minu`, rule R403. -/
  | minu (rd rs1 rs2 : Reg)
  /-- `sext.b`, rule R404. -/
  | sextB (rd rs1 : Reg)
  /-- `sext.h`, rule R405. -/
  | sextH (rd rs1 : Reg)
  /-- `zext.h`, rule R406. -/
  | zextH (rd rs1 : Reg)
  /-- `rol`, rule R407. -/
  | rol (rd rs1 rs2 : Reg)
  /-- `ror`, rule R408. -/
  | ror (rd rs1 rs2 : Reg)
  /-- `rori`, rule R409. -/
  | rori (rd rs1 : Reg) (shamt : BitVec 5)
  /-- `orc.b`, rule R410. -/
  | orcB (rd rs1 : Reg)
  /-- `rev8`, rule R411. -/
  | rev8 (rd rs1 : Reg)
  /-- `bclr`, rule R412. -/
  | bclr (rd rs1 rs2 : Reg)
  /-- `bclri`, rule R413. -/
  | bclri (rd rs1 : Reg) (shamt : BitVec 5)
  /-- `bext`, rule R414. -/
  | bext (rd rs1 rs2 : Reg)
  /-- `bexti`, rule R415. -/
  | bexti (rd rs1 : Reg) (shamt : BitVec 5)
  /-- `binv`, rule R416. -/
  | binv (rd rs1 rs2 : Reg)
  /-- `binvi`, rule R417. -/
  | binvi (rd rs1 : Reg) (shamt : BitVec 5)
  /-- `bset`, rule R418. -/
  | bset (rd rs1 rs2 : Reg)
  /-- `bseti`, rule R419. -/
  | bseti (rd rs1 : Reg) (shamt : BitVec 5)
  /-- `c.lbu`, rule R441. -/
  | cLbu (rd rs1 : Reg) (uimm : Word)
  /-- `c.lhu`, rule R442. -/
  | cLhu (rd rs1 : Reg) (uimm : Word)
  /-- `c.sb`, rule R443. -/
  | cSb (rs2 rs1 : Reg) (uimm : Word)
  /-- `c.sh`, rule R444. -/
  | cSh (rs2 rs1 : Reg) (uimm : Word)
  /-- `c.lbusp`, rule R445. -/
  | cLbusp (rd : Reg) (uimm : Word)
  /-- `c.lhusp`, rule R446. -/
  | cLhusp (rd : Reg) (uimm : Word)
  /-- `c.sbsp`, rule R447. -/
  | cSbsp (rs2 : Reg) (uimm : Word)
  /-- `c.shsp`, rule R448. -/
  | cShsp (rs2 : Reg) (uimm : Word)
deriving DecidableEq, Repr

end Sys2Proof
end

