-- ==== Sys2Proof/WellFormed.lean ====
section
/-! DEFINITION. Which terms of `Instr` stand for an encoding: the constraints of the opcode table (30_encoding.md R156, R158,
R160) and the multiples that the immediate layouts of R152 and R155 force. -/

namespace Sys2Proof

/-- The instruction has an encoding: offsets are multiples of what their layout drops, and the operands that another row or
a reserved encoding claims are excluded. -/
def Instr.wellFormed : Instr → Bool
  | .lui .. => true
  | .auipc .. => true
  | .jal _ imm => imm.extractLsb' 0 1 == 0#1
  | .jalr .. => true
  | .beq _ _ imm => imm.extractLsb' 0 1 == 0#1
  | .bne _ _ imm => imm.extractLsb' 0 1 == 0#1
  | .blt _ _ imm => imm.extractLsb' 0 1 == 0#1
  | .bge _ _ imm => imm.extractLsb' 0 1 == 0#1
  | .bltu _ _ imm => imm.extractLsb' 0 1 == 0#1
  | .bgeu _ _ imm => imm.extractLsb' 0 1 == 0#1
  | .lb .. => true
  | .lh .. => true
  | .lw .. => true
  | .lbu .. => true
  | .lhu .. => true
  | .sb .. => true
  | .sh .. => true
  | .sw .. => true
  | .addi .. => true
  | .slti .. => true
  | .sltiu .. => true
  | .xori .. => true
  | .ori .. => true
  | .andi .. => true
  | .slli .. => true
  | .srli .. => true
  | .srai .. => true
  | .add .. => true
  | .sub .. => true
  | .sll .. => true
  | .slt .. => true
  | .sltu .. => true
  | .xor .. => true
  | .srl .. => true
  | .sra .. => true
  | .or .. => true
  | .and .. => true
  | .fence .. => true
  | .ecall => true
  | .ebreak => true
  | .csrrw .. => true
  | .csrrs .. => true
  | .csrrc .. => true
  | .csrrwi .. => true
  | .csrrsi .. => true
  | .csrrci .. => true
  | .mret => true
  | .wfi => true
  | .fenceI .. => true
  | .mul .. => true
  | .mulh .. => true
  | .mulhsu .. => true
  | .mulhu .. => true
  | .div .. => true
  | .divu .. => true
  | .rem .. => true
  | .remu .. => true
  | .lrW .. => true
  | .scW .. => true
  | .amoswapW .. => true
  | .amoaddW .. => true
  | .amoxorW .. => true
  | .amoandW .. => true
  | .amoorW .. => true
  | .amominW .. => true
  | .amomaxW .. => true
  | .amominuW .. => true
  | .amomaxuW .. => true
  | .cAddi4spn _ uimm => uimm.extractLsb' 0 2 == 0#2 && uimm != 0#10
  | .cLw _ _ uimm => uimm.extractLsb' 0 2 == 0#2
  | .cSw _ _ uimm => uimm.extractLsb' 0 2 == 0#2
  | .cNop .. => true
  | .cAddi rd _ => rd != 0#5
  | .cJal imm => imm.extractLsb' 0 1 == 0#1
  | .cLi .. => true
  | .cAddi16sp imm => imm.extractLsb' 0 4 == 0#4 && imm != 0#10
  | .cLui rd imm => rd != 2#5 && imm != 0#6
  | .cSrli .. => true
  | .cSrai .. => true
  | .cAndi .. => true
  | .cSub .. => true
  | .cXor .. => true
  | .cOr .. => true
  | .cAnd .. => true
  | .cJ imm => imm.extractLsb' 0 1 == 0#1
  | .cBeqz _ imm => imm.extractLsb' 0 1 == 0#1
  | .cBnez _ imm => imm.extractLsb' 0 1 == 0#1
  | .cSlli .. => true
  | .cLwsp rd uimm => rd != 0#5 && uimm.extractLsb' 0 2 == 0#2
  | .cJr rs1 => rs1 != 0#5
  | .cMv _ rs2 => rs2 != 0#5
  | .cEbreak => true
  | .cJalr rs1 => rs1 != 0#5
  | .cAdd _ rs2 => rs2 != 0#5
  | .cSwsp _ uimm => uimm.extractLsb' 0 2 == 0#2
  | .sh1add .. => true
  | .sh2add .. => true
  | .sh3add .. => true
  | .andn .. => true
  | .orn .. => true
  | .xnor .. => true
  | .clz .. => true
  | .ctz .. => true
  | .cpop .. => true
  | .max .. => true
  | .maxu .. => true
  | .min .. => true
  | .minu .. => true
  | .sextB .. => true
  | .sextH .. => true
  | .zextH .. => true
  | .rol .. => true
  | .ror .. => true
  | .rori .. => true
  | .orcB .. => true
  | .rev8 .. => true
  | .bclr .. => true
  | .bclri .. => true
  | .bext .. => true
  | .bexti .. => true
  | .binv .. => true
  | .binvi .. => true
  | .bset .. => true
  | .bseti .. => true
  | .cLbu .. => true
  | .cLhu .. => true
  | .cSb .. => true
  | .cSh .. => true
  | .cLbusp .. => true
  | .cLhusp .. => true
  | .cSbsp .. => true
  | .cShsp .. => true

/-- The XW instructions, whose encodings are the parameter `XW_DECODE` (46 R440). -/
def Instr.isXw : Instr → Bool
  | .lui .. => false
  | .auipc .. => false
  | .jal .. => false
  | .jalr .. => false
  | .beq .. => false
  | .bne .. => false
  | .blt .. => false
  | .bge .. => false
  | .bltu .. => false
  | .bgeu .. => false
  | .lb .. => false
  | .lh .. => false
  | .lw .. => false
  | .lbu .. => false
  | .lhu .. => false
  | .sb .. => false
  | .sh .. => false
  | .sw .. => false
  | .addi .. => false
  | .slti .. => false
  | .sltiu .. => false
  | .xori .. => false
  | .ori .. => false
  | .andi .. => false
  | .slli .. => false
  | .srli .. => false
  | .srai .. => false
  | .add .. => false
  | .sub .. => false
  | .sll .. => false
  | .slt .. => false
  | .sltu .. => false
  | .xor .. => false
  | .srl .. => false
  | .sra .. => false
  | .or .. => false
  | .and .. => false
  | .fence .. => false
  | .ecall => false
  | .ebreak => false
  | .csrrw .. => false
  | .csrrs .. => false
  | .csrrc .. => false
  | .csrrwi .. => false
  | .csrrsi .. => false
  | .csrrci .. => false
  | .mret => false
  | .wfi => false
  | .fenceI .. => false
  | .mul .. => false
  | .mulh .. => false
  | .mulhsu .. => false
  | .mulhu .. => false
  | .div .. => false
  | .divu .. => false
  | .rem .. => false
  | .remu .. => false
  | .lrW .. => false
  | .scW .. => false
  | .amoswapW .. => false
  | .amoaddW .. => false
  | .amoxorW .. => false
  | .amoandW .. => false
  | .amoorW .. => false
  | .amominW .. => false
  | .amomaxW .. => false
  | .amominuW .. => false
  | .amomaxuW .. => false
  | .cAddi4spn .. => false
  | .cLw .. => false
  | .cSw .. => false
  | .cNop .. => false
  | .cAddi .. => false
  | .cJal .. => false
  | .cLi .. => false
  | .cAddi16sp .. => false
  | .cLui .. => false
  | .cSrli .. => false
  | .cSrai .. => false
  | .cAndi .. => false
  | .cSub .. => false
  | .cXor .. => false
  | .cOr .. => false
  | .cAnd .. => false
  | .cJ .. => false
  | .cBeqz .. => false
  | .cBnez .. => false
  | .cSlli .. => false
  | .cLwsp .. => false
  | .cJr .. => false
  | .cMv .. => false
  | .cEbreak => false
  | .cJalr .. => false
  | .cAdd .. => false
  | .cSwsp .. => false
  | .sh1add .. => false
  | .sh2add .. => false
  | .sh3add .. => false
  | .andn .. => false
  | .orn .. => false
  | .xnor .. => false
  | .clz .. => false
  | .ctz .. => false
  | .cpop .. => false
  | .max .. => false
  | .maxu .. => false
  | .min .. => false
  | .minu .. => false
  | .sextB .. => false
  | .sextH .. => false
  | .zextH .. => false
  | .rol .. => false
  | .ror .. => false
  | .rori .. => false
  | .orcB .. => false
  | .rev8 .. => false
  | .bclr .. => false
  | .bclri .. => false
  | .bext .. => false
  | .bexti .. => false
  | .binv .. => false
  | .binvi .. => false
  | .bset .. => false
  | .bseti .. => false
  | .cLbu .. => true
  | .cLhu .. => true
  | .cSb .. => true
  | .cSh .. => true
  | .cLbusp .. => true
  | .cLhusp .. => true
  | .cSbsp .. => true
  | .cShsp .. => true

end Sys2Proof
end

