-- ==== Sys2Proof/Decode.lean ====
section
/-! DEFINITION. The decoder (30_encoding.md R150 to R160), total on any bytes, and the encoder written from the same tables.

A word is taken apart into the fields of R151 (32-bit) or R154 (16-bit), each named once; the rows of the opcode table are
then matches on field values. The constraint of a row (R158) is a test in its arm. Which rows a member has (R159) is one
function, `Instr.onMember`, applied after the match. The eight XW rows come from `XW_DECODE` (46_xw_custom.md R440), and
join the table with R156's order. -/

namespace Sys2Proof

/-- Place `v` in an `m`-bit word with its lowest bit at `lo`. -/
def fieldAt {n : Nat} (m : Nat) (v : BitVec n) (lo : Nat) : BitVec m := v.setWidth m <<< lo

/-! ## Fields of the 32-bit formats (R151) -/

/-- `opcode`, bits 6 to 0. -/
def opcodeOf (w : Word) : BitVec 7 := w.extractLsb' 0 7
/-- `rd`, bits 11 to 7. -/
def rdOf (w : Word) : Reg := w.extractLsb' 7 5
/-- `funct3`, bits 14 to 12. -/
def funct3Of (w : Word) : BitVec 3 := w.extractLsb' 12 3
/-- `rs1`, bits 19 to 15. -/
def rs1Of (w : Word) : Reg := w.extractLsb' 15 5
/-- `rs2`, bits 24 to 20. -/
def rs2Of (w : Word) : Reg := w.extractLsb' 20 5
/-- `funct7`, bits 31 to 25. -/
def funct7Of (w : Word) : BitVec 7 := w.extractLsb' 25 7

/-- A 32-bit word from its six fields. -/
def word32 (f7 : BitVec 7) (rs2 rs1 : Reg) (f3 : BitVec 3) (rd : Reg) (op : BitVec 7) : Word :=
  fieldAt 32 f7 25 ||| fieldAt 32 rs2 20 ||| fieldAt 32 rs1 15 ||| fieldAt 32 f3 12 ||| fieldAt 32 rd 7 ||| fieldAt 32 op 0

/-! ## Immediates of the 32-bit formats (R152), and their field parts -/

/-- `imm_I`: `{bits[31:25], bits[24:20]}`. -/
def immI (f7 : BitVec 7) (rs2 : Reg) : BitVec 12 := fieldAt 12 f7 5 ||| fieldAt 12 rs2 0
/-- Bits 31 to 25 of an I or S immediate. -/
def immHi7 (imm : BitVec 12) : BitVec 7 := imm.extractLsb' 5 7
/-- The low five bits of an I or S immediate. -/
def immLo5 (imm : BitVec 12) : BitVec 5 := imm.extractLsb' 0 5

/-- `imm_B`: `{bits[31], bits[7], bits[30:25], bits[11:8], 0}`. -/
def immB (f7 : BitVec 7) (rd : Reg) : BitVec 13 :=
  fieldAt 13 (f7.extractLsb' 6 1) 12 ||| fieldAt 13 (rd.extractLsb' 0 1) 11 |||
    fieldAt 13 (f7.extractLsb' 0 6) 5 ||| fieldAt 13 (rd.extractLsb' 1 4) 1
/-- Bits 31 to 25 of a branch: `{imm[12], imm[10:5]}`. -/
def immBHi (imm : BitVec 13) : BitVec 7 := fieldAt 7 (imm.extractLsb' 12 1) 6 ||| fieldAt 7 (imm.extractLsb' 5 6) 0
/-- Bits 11 to 7 of a branch: `{imm[4:1], imm[11]}`. -/
def immBLo (imm : BitVec 13) : Reg := fieldAt 5 (imm.extractLsb' 1 4) 1 ||| fieldAt 5 (imm.extractLsb' 11 1) 0

/-- `imm_U`'s field: `bits[31:12]`. -/
def immU (f7 : BitVec 7) (rs2 rs1 : Reg) (f3 : BitVec 3) : BitVec 20 :=
  fieldAt 20 f7 13 ||| fieldAt 20 rs2 8 ||| fieldAt 20 rs1 3 ||| fieldAt 20 f3 0

/-- `imm_J`: `{bits[31], bits[19:12], bits[20], bits[30:21], 0}`. -/
def immJ (f7 : BitVec 7) (rs2 rs1 : Reg) (f3 : BitVec 3) : BitVec 21 :=
  fieldAt 21 (f7.extractLsb' 6 1) 20 ||| fieldAt 21 rs1 15 ||| fieldAt 21 f3 12 ||| fieldAt 21 (rs2.extractLsb' 0 1) 11 |||
    fieldAt 21 (f7.extractLsb' 0 6) 5 ||| fieldAt 21 (rs2.extractLsb' 1 4) 1

/-! ## Rows of the 32-bit opcodes -/

/-- LOAD, 0x03 (R153). -/
def decodeLoad (f3 : BitVec 3) (rd rs1 : Reg) (imm : BitVec 12) : Option Instr :=
  match f3 with
  | 0#3 => some (.lb rd rs1 imm)
  | 1#3 => some (.lh rd rs1 imm)
  | 2#3 => some (.lw rd rs1 imm)
  | 4#3 => some (.lbu rd rs1 imm)
  | 5#3 => some (.lhu rd rs1 imm)
  | _ => none

/-- STORE, 0x23. -/
def decodeStore (f3 : BitVec 3) (rs2 rs1 : Reg) (imm : BitVec 12) : Option Instr :=
  match f3 with
  | 0#3 => some (.sb rs2 rs1 imm)
  | 1#3 => some (.sh rs2 rs1 imm)
  | 2#3 => some (.sw rs2 rs1 imm)
  | _ => none

/-- BRANCH, 0x63. -/
def decodeBranch (f3 : BitVec 3) (rs1 rs2 : Reg) (imm : BitVec 13) : Option Instr :=
  match f3 with
  | 0#3 => some (.beq rs1 rs2 imm)
  | 1#3 => some (.bne rs1 rs2 imm)
  | 4#3 => some (.blt rs1 rs2 imm)
  | 5#3 => some (.bge rs1 rs2 imm)
  | 6#3 => some (.bltu rs1 rs2 imm)
  | 7#3 => some (.bgeu rs1 rs2 imm)
  | _ => none

/-- MISC-MEM, 0x0F. `fence` and `fence.i` ignore their other fields (R158) and keep them. -/
def decodeMiscMem (f7 : BitVec 7) (rs2 rs1 : Reg) (f3 : BitVec 3) (rd : Reg) : Option Instr :=
  match f3 with
  | 0#3 => some (.fence ((immI f7 rs2).extractLsb' 8 4) ((immI f7 rs2).extractLsb' 4 4) ((immI f7 rs2).extractLsb' 0 4) rs1 rd)
  | 1#3 => some (.fenceI (immI f7 rs2) rs1 rd)
  | _ => none

/-- OP-IMM, 0x13, with `funct3 = 1`: shifts left and the I-unary rows of Zbb and Zbs. -/
def decodeOpImm1 (f7 : BitVec 7) (rs2 rs1 rd : Reg) : Option Instr :=
  match f7 with
  | 0x00#7 => some (.slli rd rs1 rs2)
  | 0x30#7 =>
    match rs2 with
    | 0#5 => some (.clz rd rs1)
    | 1#5 => some (.ctz rd rs1)
    | 2#5 => some (.cpop rd rs1)
    | 4#5 => some (.sextB rd rs1)
    | 5#5 => some (.sextH rd rs1)
    | _ => none
  | 0x24#7 => some (.bclri rd rs1 rs2)
  | 0x34#7 => some (.binvi rd rs1 rs2)
  | 0x14#7 => some (.bseti rd rs1 rs2)
  | _ => none

/-- OP-IMM with `funct3 = 5`: shifts right, rotates and the rest of the I-unary rows. -/
def decodeOpImm5 (f7 : BitVec 7) (rs2 rs1 rd : Reg) : Option Instr :=
  match f7 with
  | 0x00#7 => some (.srli rd rs1 rs2)
  | 0x20#7 => some (.srai rd rs1 rs2)
  | 0x30#7 => some (.rori rd rs1 rs2)
  | 0x14#7 =>
    match rs2 with
    | 7#5 => some (.orcB rd rs1)
    | _ => none
  | 0x34#7 =>
    match rs2 with
    | 24#5 => some (.rev8 rd rs1)
    | _ => none
  | 0x24#7 => some (.bexti rd rs1 rs2)
  | _ => none

/-- OP-IMM, 0x13. -/
def decodeOpImm (f7 : BitVec 7) (rs2 rs1 : Reg) (f3 : BitVec 3) (rd : Reg) : Option Instr :=
  match f3 with
  | 0#3 => some (.addi rd rs1 (immI f7 rs2))
  | 1#3 => decodeOpImm1 f7 rs2 rs1 rd
  | 2#3 => some (.slti rd rs1 (immI f7 rs2))
  | 3#3 => some (.sltiu rd rs1 (immI f7 rs2))
  | 4#3 => some (.xori rd rs1 (immI f7 rs2))
  | 5#3 => decodeOpImm5 f7 rs2 rs1 rd
  | 6#3 => some (.ori rd rs1 (immI f7 rs2))
  | 7#3 => some (.andi rd rs1 (immI f7 rs2))
  | _ => none

/-- OP, 0x33. `zext.h` requires the second register field to be 0. -/
def decodeOp (f7 : BitVec 7) (rs2 rs1 : Reg) (f3 : BitVec 3) (rd : Reg) : Option Instr :=
  match f7 with
  | 0x00#7 =>
    match f3 with
    | 0#3 => some (.add rd rs1 rs2)
    | 1#3 => some (.sll rd rs1 rs2)
    | 2#3 => some (.slt rd rs1 rs2)
    | 3#3 => some (.sltu rd rs1 rs2)
    | 4#3 => some (.xor rd rs1 rs2)
    | 5#3 => some (.srl rd rs1 rs2)
    | 6#3 => some (.or rd rs1 rs2)
    | 7#3 => some (.and rd rs1 rs2)
    | _ => none
  | 0x01#7 =>
    match f3 with
    | 0#3 => some (.mul rd rs1 rs2)
    | 1#3 => some (.mulh rd rs1 rs2)
    | 2#3 => some (.mulhsu rd rs1 rs2)
    | 3#3 => some (.mulhu rd rs1 rs2)
    | 4#3 => some (.div rd rs1 rs2)
    | 5#3 => some (.divu rd rs1 rs2)
    | 6#3 => some (.rem rd rs1 rs2)
    | 7#3 => some (.remu rd rs1 rs2)
    | _ => none
  | 0x04#7 =>
    match f3 with
    | 4#3 => if rs2 = 0#5 then some (.zextH rd rs1) else none
    | _ => none
  | 0x05#7 =>
    match f3 with
    | 6#3 => some (.max rd rs1 rs2)
    | 7#3 => some (.maxu rd rs1 rs2)
    | 4#3 => some (.min rd rs1 rs2)
    | 5#3 => some (.minu rd rs1 rs2)
    | _ => none
  | 0x10#7 =>
    match f3 with
    | 2#3 => some (.sh1add rd rs1 rs2)
    | 4#3 => some (.sh2add rd rs1 rs2)
    | 6#3 => some (.sh3add rd rs1 rs2)
    | _ => none
  | 0x14#7 =>
    match f3 with
    | 1#3 => some (.bset rd rs1 rs2)
    | _ => none
  | 0x20#7 =>
    match f3 with
    | 0#3 => some (.sub rd rs1 rs2)
    | 5#3 => some (.sra rd rs1 rs2)
    | 7#3 => some (.andn rd rs1 rs2)
    | 6#3 => some (.orn rd rs1 rs2)
    | 4#3 => some (.xnor rd rs1 rs2)
    | _ => none
  | 0x24#7 =>
    match f3 with
    | 1#3 => some (.bclr rd rs1 rs2)
    | 5#3 => some (.bext rd rs1 rs2)
    | _ => none
  | 0x30#7 =>
    match f3 with
    | 1#3 => some (.rol rd rs1 rs2)
    | 5#3 => some (.ror rd rs1 rs2)
    | _ => none
  | 0x34#7 =>
    match f3 with
    | 1#3 => some (.binv rd rs1 rs2)
    | _ => none
  | _ => none

/-- SYSTEM, 0x73, with `funct3 = 0` (41 R272): four words, every other one has no row. -/
def decodeSystem0 (f7 : BitVec 7) (rs2 rs1 rd : Reg) : Option Instr :=
  if rs1 = 0#5 ∧ rd = 0#5 then
    match f7 with
    | 0x00#7 =>
      match rs2 with
      | 0#5 => some .ecall
      | 1#5 => some .ebreak
      | _ => none
    | 0x18#7 =>
      match rs2 with
      | 2#5 => some .mret
      | _ => none
    | 0x08#7 =>
      match rs2 with
      | 5#5 => some .wfi
      | _ => none
    | _ => none
  else none

/-- SYSTEM, 0x73. -/
def decodeSystem (f7 : BitVec 7) (rs2 rs1 : Reg) (f3 : BitVec 3) (rd : Reg) : Option Instr :=
  match f3 with
  | 0#3 => decodeSystem0 f7 rs2 rs1 rd
  | 1#3 => some (.csrrw rd (immI f7 rs2) rs1)
  | 2#3 => some (.csrrs rd (immI f7 rs2) rs1)
  | 3#3 => some (.csrrc rd (immI f7 rs2) rs1)
  | 5#3 => some (.csrrwi rd (immI f7 rs2) rs1)
  | 6#3 => some (.csrrsi rd (immI f7 rs2) rs1)
  | 7#3 => some (.csrrci rd (immI f7 rs2) rs1)
  | _ => none

/-- AMO, 0x2F, with `funct3 = 2`: `funct5` is bits 31 to 27, `aq` bit 26, `rl` bit 25 (R151). -/
def decodeAmo (f7 : BitVec 7) (rs2 rs1 : Reg) (f3 : BitVec 3) (rd : Reg) : Option Instr :=
  if f3 = 2#3 then
    let aq := f7.extractLsb' 1 1
    let rl := f7.extractLsb' 0 1
    match f7.extractLsb' 2 5 with
    | 0x02#5 => if rs2 = 0#5 then some (.lrW rd rs1 aq rl) else none
    | 0x03#5 => some (.scW rd rs2 rs1 aq rl)
    | 0x01#5 => some (.amoswapW rd rs2 rs1 aq rl)
    | 0x00#5 => some (.amoaddW rd rs2 rs1 aq rl)
    | 0x04#5 => some (.amoxorW rd rs2 rs1 aq rl)
    | 0x0C#5 => some (.amoandW rd rs2 rs1 aq rl)
    | 0x08#5 => some (.amoorW rd rs2 rs1 aq rl)
    | 0x10#5 => some (.amominW rd rs2 rs1 aq rl)
    | 0x14#5 => some (.amomaxW rd rs2 rs1 aq rl)
    | 0x18#5 => some (.amominuW rd rs2 rs1 aq rl)
    | 0x1C#5 => some (.amomaxuW rd rs2 rs1 aq rl)
    | _ => none
  else none

/-- The 32-bit rows, from the six fields of the word. -/
def decodeFields (f7 : BitVec 7) (rs2 rs1 : Reg) (f3 : BitVec 3) (rd : Reg) (op : BitVec 7) : Option Instr :=
  match op with
  | 0x37#7 => some (.lui rd (immU f7 rs2 rs1 f3))
  | 0x17#7 => some (.auipc rd (immU f7 rs2 rs1 f3))
  | 0x6F#7 => some (.jal rd (immJ f7 rs2 rs1 f3))
  | 0x67#7 => if f3 = 0#3 then some (.jalr rd rs1 (immI f7 rs2)) else none
  | 0x63#7 => decodeBranch f3 rs1 rs2 (immB f7 rd)
  | 0x03#7 => decodeLoad f3 rd rs1 (immI f7 rs2)
  | 0x23#7 => decodeStore f3 rs2 rs1 (immI f7 rd)
  | 0x13#7 => decodeOpImm f7 rs2 rs1 f3 rd
  | 0x33#7 => decodeOp f7 rs2 rs1 f3 rd
  | 0x0F#7 => decodeMiscMem f7 rs2 rs1 f3 rd
  | 0x73#7 => decodeSystem f7 rs2 rs1 f3 rd
  | 0x2F#7 => decodeAmo f7 rs2 rs1 f3 rd
  | _ => none

/-- The row a 32-bit word matches (R156), all members' rows together. -/
def decode32 (w : Word) : Option Instr :=
  decodeFields (funct7Of w) (rs2Of w) (rs1Of w) (funct3Of w) (rdOf w) (opcodeOf w)

/-! ## Fields and immediates of the 16-bit formats (R154, R155)

A parcel is seven fields: `funct3` = bits 15 to 13, bit 12, bits 11 to 10, 9 to 7, 6 to 5, 4 to 2, and `op` = bits 1 to 0.
The 5-bit register fields are `{bits[11:10], bits[9:7]}` and `{bits[6:5], bits[4:2]}`. -/

/-- A parcel from its seven fields. -/
def word16 (f3 : BitVec 3) (b12 : BitVec 1) (hi : BitVec 2) (ra : BitVec 3) (mid : BitVec 2) (rb : BitVec 3)
    (op : BitVec 2) : Half :=
  fieldAt 16 f3 13 ||| fieldAt 16 b12 12 ||| fieldAt 16 hi 10 ||| fieldAt 16 ra 7 ||| fieldAt 16 mid 5 |||
    fieldAt 16 rb 2 ||| fieldAt 16 op 0

/-- A 5-bit field from its two parts. -/
def reg5 (hi : BitVec 2) (lo : BitVec 3) : Reg := fieldAt 5 hi 3 ||| fieldAt 5 lo 0
/-- The upper part of a 5-bit field. -/
def regHi (r : Reg) : BitVec 2 := r.extractLsb' 3 2
/-- The lower part of a 5-bit field. -/
def regLo (r : Reg) : BitVec 3 := r.extractLsb' 0 3

/-- `c.addi4spn`: `{bits[10:7], bits[12:11], bits[5], bits[6], 00}`. -/
def cimmAddi4spn (b12 : BitVec 1) (hi : BitVec 2) (ra : BitVec 3) (mid : BitVec 2) : BitVec 10 :=
  fieldAt 10 (hi.extractLsb' 0 1) 9 ||| fieldAt 10 ra 6 ||| fieldAt 10 b12 5 ||| fieldAt 10 (hi.extractLsb' 1 1) 4 |||
    fieldAt 10 (mid.extractLsb' 0 1) 3 ||| fieldAt 10 (mid.extractLsb' 1 1) 2

/-- `c.lw`, `c.sw`: `{bits[5], bits[12:10], bits[6], 00}`. -/
def cimmLw (b12 : BitVec 1) (hi : BitVec 2) (mid : BitVec 2) : BitVec 7 :=
  fieldAt 7 (mid.extractLsb' 0 1) 6 ||| fieldAt 7 b12 5 ||| fieldAt 7 hi 3 ||| fieldAt 7 (mid.extractLsb' 1 1) 2

/-- `c.addi`, `c.li`, `c.andi`, and the field of `c.lui`: `{bits[12], bits[6:2]}`. -/
def cimm6 (b12 : BitVec 1) (mid : BitVec 2) (rb : BitVec 3) : BitVec 6 :=
  fieldAt 6 b12 5 ||| fieldAt 6 mid 3 ||| fieldAt 6 rb 0

/-- `c.addi16sp`: `{bits[12], bits[4:3], bits[5], bits[2], bits[6], 0000}`. -/
def cimmAddi16sp (b12 : BitVec 1) (mid : BitVec 2) (rb : BitVec 3) : BitVec 10 :=
  fieldAt 10 b12 9 ||| fieldAt 10 (rb.extractLsb' 1 2) 7 ||| fieldAt 10 (mid.extractLsb' 0 1) 6 |||
    fieldAt 10 (rb.extractLsb' 0 1) 5 ||| fieldAt 10 (mid.extractLsb' 1 1) 4

/-- `c.j`, `c.jal`: `{bits[12], bits[8], bits[10:9], bits[6], bits[7], bits[2], bits[11], bits[5:3], 0}`. -/
def cimmJ (b12 : BitVec 1) (hi : BitVec 2) (ra : BitVec 3) (mid : BitVec 2) (rb : BitVec 3) : BitVec 12 :=
  fieldAt 12 b12 11 ||| fieldAt 12 (ra.extractLsb' 1 1) 10 ||| fieldAt 12 (hi.extractLsb' 0 1) 9 |||
    fieldAt 12 (ra.extractLsb' 2 1) 8 ||| fieldAt 12 (mid.extractLsb' 1 1) 7 ||| fieldAt 12 (ra.extractLsb' 0 1) 6 |||
    fieldAt 12 (rb.extractLsb' 0 1) 5 ||| fieldAt 12 (hi.extractLsb' 1 1) 4 ||| fieldAt 12 (mid.extractLsb' 0 1) 3 |||
    fieldAt 12 (rb.extractLsb' 1 2) 1

/-- `c.beqz`, `c.bnez`: `{bits[12], bits[6:5], bits[2], bits[11:10], bits[4:3], 0}`. -/
def cimmB (b12 : BitVec 1) (hi : BitVec 2) (mid : BitVec 2) (rb : BitVec 3) : BitVec 9 :=
  fieldAt 9 b12 8 ||| fieldAt 9 mid 6 ||| fieldAt 9 (rb.extractLsb' 0 1) 5 ||| fieldAt 9 hi 3 ||| fieldAt 9 (rb.extractLsb' 1 2) 1

/-- `c.lwsp`: `{bits[3:2], bits[12], bits[6:4], 00}`. -/
def cimmLwsp (b12 : BitVec 1) (mid : BitVec 2) (rb : BitVec 3) : BitVec 8 :=
  fieldAt 8 (rb.extractLsb' 0 2) 6 ||| fieldAt 8 b12 5 ||| fieldAt 8 mid 3 ||| fieldAt 8 (rb.extractLsb' 2 1) 2

/-- `c.swsp`: `{bits[8:7], bits[12:9], 00}`. -/
def cimmSwsp (b12 : BitVec 1) (hi : BitVec 2) (ra : BitVec 3) : BitVec 8 :=
  fieldAt 8 (ra.extractLsb' 0 2) 6 ||| fieldAt 8 b12 5 ||| fieldAt 8 hi 3 ||| fieldAt 8 (ra.extractLsb' 2 1) 2

/-! ## Rows of the 16-bit quadrants (R156, R158) -/

/-- Quadrant 0. -/
def decodeQ0 (f3 : BitVec 3) (b12 : BitVec 1) (hi : BitVec 2) (ra : BitVec 3) (mid : BitVec 2) (rb : BitVec 3) : Option Instr :=
  match f3 with
  | 0#3 => if cimmAddi4spn b12 hi ra mid = 0#10 then none else some (.cAddi4spn rb (cimmAddi4spn b12 hi ra mid))
  | 2#3 => some (.cLw rb ra (cimmLw b12 hi mid))
  | 6#3 => some (.cSw rb ra (cimmLw b12 hi mid))
  | _ => none

/-- Quadrant 1, `funct3 = 4`: the CB and CA rows on two 3-bit registers. -/
def decodeQ1Alu (b12 : BitVec 1) (hi : BitVec 2) (ra : BitVec 3) (mid : BitVec 2) (rb : BitVec 3) : Option Instr :=
  match hi with
  | 0#2 => if b12 = 0#1 then some (.cSrli ra (reg5 mid rb)) else none
  | 1#2 => if b12 = 0#1 then some (.cSrai ra (reg5 mid rb)) else none
  | 2#2 => some (.cAndi ra (cimm6 b12 mid rb))
  | _ =>
    if b12 = 0#1 then
      match mid with
      | 0#2 => some (.cSub ra rb)
      | 1#2 => some (.cXor ra rb)
      | 2#2 => some (.cOr ra rb)
      | _ => some (.cAnd ra rb)
    else none

/-- Quadrant 1. -/
def decodeQ1 (f3 : BitVec 3) (b12 : BitVec 1) (hi : BitVec 2) (ra : BitVec 3) (mid : BitVec 2) (rb : BitVec 3) : Option Instr :=
  match f3 with
  | 0#3 => if reg5 hi ra = 0#5 then some (.cNop (cimm6 b12 mid rb)) else some (.cAddi (reg5 hi ra) (cimm6 b12 mid rb))
  | 1#3 => some (.cJal (cimmJ b12 hi ra mid rb))
  | 2#3 => some (.cLi (reg5 hi ra) (cimm6 b12 mid rb))
  | 3#3 =>
    if reg5 hi ra = 2#5 then
      if cimmAddi16sp b12 mid rb = 0#10 then none else some (.cAddi16sp (cimmAddi16sp b12 mid rb))
    else if cimm6 b12 mid rb = 0#6 then none
    else some (.cLui (reg5 hi ra) (cimm6 b12 mid rb))
  | 4#3 => decodeQ1Alu b12 hi ra mid rb
  | 5#3 => some (.cJ (cimmJ b12 hi ra mid rb))
  | 6#3 => some (.cBeqz ra (cimmB b12 hi mid rb))
  | _ => some (.cBnez ra (cimmB b12 hi mid rb))

/-- Quadrant 2. -/
def decodeQ2 (f3 : BitVec 3) (b12 : BitVec 1) (hi : BitVec 2) (ra : BitVec 3) (mid : BitVec 2) (rb : BitVec 3) : Option Instr :=
  match f3 with
  | 0#3 => if b12 = 0#1 then some (.cSlli (reg5 hi ra) (reg5 mid rb)) else none
  | 2#3 => if reg5 hi ra = 0#5 then none else some (.cLwsp (reg5 hi ra) (cimmLwsp b12 mid rb))
  | 4#3 =>
    if b12 = 0#1 then
      if reg5 mid rb = 0#5 then
        if reg5 hi ra = 0#5 then none else some (.cJr (reg5 hi ra))
      else some (.cMv (reg5 hi ra) (reg5 mid rb))
    else
      if reg5 mid rb = 0#5 then
        if reg5 hi ra = 0#5 then some .cEbreak else some (.cJalr (reg5 hi ra))
      else some (.cAdd (reg5 hi ra) (reg5 mid rb))
  | 6#3 => some (.cSwsp (reg5 mid rb) (cimmSwsp b12 hi ra))
  | _ => none

/-- The 16-bit rows, from the seven fields of the parcel. -/
def decodeFields16 (f3 : BitVec 3) (b12 : BitVec 1) (hi : BitVec 2) (ra : BitVec 3) (mid : BitVec 2) (rb : BitVec 3)
    (op : BitVec 2) : Option Instr :=
  match op with
  | 0#2 => decodeQ0 f3 b12 hi ra mid rb
  | 1#2 => decodeQ1 f3 b12 hi ra mid rb
  | 2#2 => decodeQ2 f3 b12 hi ra mid rb
  | _ => none

/-- The row of the C extension that a parcel matches. -/
def decode16 (p : Half) : Option Instr :=
  decodeFields16 (p.extractLsb' 13 3) (p.extractLsb' 12 1) (p.extractLsb' 10 2) (p.extractLsb' 7 3) (p.extractLsb' 5 2)
    (p.extractLsb' 2 3) (p.extractLsb' 0 2)

/-! ## XW (46_xw_custom.md R440): rows supplied by `XW_DECODE` -/

/-- The register an XW field names. -/
def XwField.read (f : XwField) (p : Half) : Reg :=
  if f.short then fieldAt 5 (p.extractLsb' f.lo 3) 0 ||| 8#5 else p.extractLsb' f.lo 5

/-- The bits of an XW register field. -/
def XwField.place (f : XwField) (r : Reg) : Half :=
  if f.short then fieldAt 16 (r.extractLsb' 0 3) f.lo else fieldAt 16 r f.lo

/-- The unsigned offset of an XW row, assembled bit by bit. -/
def XwRow.offset (row : XwRow) (p : Half) : Word :=
  row.imm.foldl (fun acc b => acc ||| (if p.getLsbD b.1 then 1#32 <<< b.2 else 0#32)) 0#32

/-- The instruction bits of an XW offset. -/
def XwRow.placeOffset (row : XwRow) (uimm : Word) : Half :=
  row.imm.foldl (fun acc b => acc ||| (if uimm.getLsbD b.2 then 1#16 <<< b.1 else 0#16)) 0#16

/-- The instruction of a row that matches. -/
def XwRow.instr (row : XwRow) (p : Half) : Instr :=
  match row.op with
  | .lbu => .cLbu (row.data.read p) (row.base.read p) (row.offset p)
  | .lhu => .cLhu (row.data.read p) (row.base.read p) (row.offset p)
  | .sb => .cSb (row.data.read p) (row.base.read p) (row.offset p)
  | .sh => .cSh (row.data.read p) (row.base.read p) (row.offset p)
  | .lbusp => .cLbusp (row.data.read p) (row.offset p)
  | .lhusp => .cLhusp (row.data.read p) (row.offset p)
  | .sbsp => .cSbsp (row.data.read p) (row.offset p)
  | .shsp => .cShsp (row.data.read p) (row.offset p)

/-! ## Members (R159) and the decode procedure (R150, R156, R157) -/

/-- The part of the instruction set a row belongs to. -/
inductive Feature where
  | all
  | a
  | zba
  | zbb
  | zbs
  | xw
deriving DecidableEq, Repr

/-- The feature a member must have for a row to exist on it. -/
def Instr.feature : Instr → Feature
  | .lui .. => .all
  | .auipc .. => .all
  | .jal .. => .all
  | .jalr .. => .all
  | .beq .. => .all
  | .bne .. => .all
  | .blt .. => .all
  | .bge .. => .all
  | .bltu .. => .all
  | .bgeu .. => .all
  | .lb .. => .all
  | .lh .. => .all
  | .lw .. => .all
  | .lbu .. => .all
  | .lhu .. => .all
  | .sb .. => .all
  | .sh .. => .all
  | .sw .. => .all
  | .addi .. => .all
  | .slti .. => .all
  | .sltiu .. => .all
  | .xori .. => .all
  | .ori .. => .all
  | .andi .. => .all
  | .slli .. => .all
  | .srli .. => .all
  | .srai .. => .all
  | .add .. => .all
  | .sub .. => .all
  | .sll .. => .all
  | .slt .. => .all
  | .sltu .. => .all
  | .xor .. => .all
  | .srl .. => .all
  | .sra .. => .all
  | .or .. => .all
  | .and .. => .all
  | .fence .. => .all
  | .ecall => .all
  | .ebreak => .all
  | .csrrw .. => .all
  | .csrrs .. => .all
  | .csrrc .. => .all
  | .csrrwi .. => .all
  | .csrrsi .. => .all
  | .csrrci .. => .all
  | .mret => .all
  | .wfi => .all
  | .fenceI .. => .all
  | .mul .. => .all
  | .mulh .. => .all
  | .mulhsu .. => .all
  | .mulhu .. => .all
  | .div .. => .all
  | .divu .. => .all
  | .rem .. => .all
  | .remu .. => .all
  | .lrW .. => .a
  | .scW .. => .a
  | .amoswapW .. => .a
  | .amoaddW .. => .a
  | .amoxorW .. => .a
  | .amoandW .. => .a
  | .amoorW .. => .a
  | .amominW .. => .a
  | .amomaxW .. => .a
  | .amominuW .. => .a
  | .amomaxuW .. => .a
  | .cAddi4spn .. => .all
  | .cLw .. => .all
  | .cSw .. => .all
  | .cNop .. => .all
  | .cAddi .. => .all
  | .cJal .. => .all
  | .cLi .. => .all
  | .cAddi16sp .. => .all
  | .cLui .. => .all
  | .cSrli .. => .all
  | .cSrai .. => .all
  | .cAndi .. => .all
  | .cSub .. => .all
  | .cXor .. => .all
  | .cOr .. => .all
  | .cAnd .. => .all
  | .cJ .. => .all
  | .cBeqz .. => .all
  | .cBnez .. => .all
  | .cSlli .. => .all
  | .cLwsp .. => .all
  | .cJr .. => .all
  | .cMv .. => .all
  | .cEbreak => .all
  | .cJalr .. => .all
  | .cAdd .. => .all
  | .cSwsp .. => .all
  | .sh1add .. => .zba
  | .sh2add .. => .zba
  | .sh3add .. => .zba
  | .andn .. => .zbb
  | .orn .. => .zbb
  | .xnor .. => .zbb
  | .clz .. => .zbb
  | .ctz .. => .zbb
  | .cpop .. => .zbb
  | .max .. => .zbb
  | .maxu .. => .zbb
  | .min .. => .zbb
  | .minu .. => .zbb
  | .sextB .. => .zbb
  | .sextH .. => .zbb
  | .zextH .. => .zbb
  | .rol .. => .zbb
  | .ror .. => .zbb
  | .rori .. => .zbb
  | .orcB .. => .zbb
  | .rev8 .. => .zbb
  | .bclr .. => .zbs
  | .bclri .. => .zbs
  | .bext .. => .zbs
  | .bexti .. => .zbs
  | .binv .. => .zbs
  | .binvi .. => .zbs
  | .bset .. => .zbs
  | .bseti .. => .zbs
  | .cLbu .. => .xw
  | .cLhu .. => .xw
  | .cSb .. => .xw
  | .cSh .. => .xw
  | .cLbusp .. => .xw
  | .cLhusp .. => .xw
  | .cSbsp .. => .xw
  | .cShsp .. => .xw

/-- The member has the feature (R159, 92 D5). -/
def Config.has (c : Config) : Feature → Bool
  | .all => true
  | .a => c.variant.isV3A
  | .zba => !c.variant.isV3A && c.bSubset.zba
  | .zbb => !c.variant.isV3A && c.bSubset.zbb
  | .zbs => !c.variant.isV3A && c.bSubset.zbs
  | .xw => !c.variant.isV3A

/-- The instruction's row exists on the member. -/
def Instr.onMember (c : Config) (i : Instr) : Bool := c.has i.feature

/-! ## The order of the rows (R156) -/

/-- How many 1 bits a mask has. -/
def maskOnes {n : Nat} (m : BitVec n) : Nat := ((List.range n).filter fun k => m.getLsbD k).length

/-- The mask of an instruction's row, as the opcode table has it; an XW instruction's row is supplied by `XW_DECODE`. -/
def Instr.rowMask : Instr → Word
  | .lui .. => 0x0000007F#32
  | .auipc .. => 0x0000007F#32
  | .jal .. => 0x0000007F#32
  | .jalr .. => 0x0000707F#32
  | .beq .. => 0x0000707F#32
  | .bne .. => 0x0000707F#32
  | .blt .. => 0x0000707F#32
  | .bge .. => 0x0000707F#32
  | .bltu .. => 0x0000707F#32
  | .bgeu .. => 0x0000707F#32
  | .lb .. => 0x0000707F#32
  | .lh .. => 0x0000707F#32
  | .lw .. => 0x0000707F#32
  | .lbu .. => 0x0000707F#32
  | .lhu .. => 0x0000707F#32
  | .sb .. => 0x0000707F#32
  | .sh .. => 0x0000707F#32
  | .sw .. => 0x0000707F#32
  | .addi .. => 0x0000707F#32
  | .slti .. => 0x0000707F#32
  | .sltiu .. => 0x0000707F#32
  | .xori .. => 0x0000707F#32
  | .ori .. => 0x0000707F#32
  | .andi .. => 0x0000707F#32
  | .slli .. => 0xFE00707F#32
  | .srli .. => 0xFE00707F#32
  | .srai .. => 0xFE00707F#32
  | .add .. => 0xFE00707F#32
  | .sub .. => 0xFE00707F#32
  | .sll .. => 0xFE00707F#32
  | .slt .. => 0xFE00707F#32
  | .sltu .. => 0xFE00707F#32
  | .xor .. => 0xFE00707F#32
  | .srl .. => 0xFE00707F#32
  | .sra .. => 0xFE00707F#32
  | .or .. => 0xFE00707F#32
  | .and .. => 0xFE00707F#32
  | .fence .. => 0x0000707F#32
  | .ecall => 0xFFFFFFFF#32
  | .ebreak => 0xFFFFFFFF#32
  | .csrrw .. => 0x0000707F#32
  | .csrrs .. => 0x0000707F#32
  | .csrrc .. => 0x0000707F#32
  | .csrrwi .. => 0x0000707F#32
  | .csrrsi .. => 0x0000707F#32
  | .csrrci .. => 0x0000707F#32
  | .mret => 0xFFFFFFFF#32
  | .wfi => 0xFFFFFFFF#32
  | .fenceI .. => 0x0000707F#32
  | .mul .. => 0xFE00707F#32
  | .mulh .. => 0xFE00707F#32
  | .mulhsu .. => 0xFE00707F#32
  | .mulhu .. => 0xFE00707F#32
  | .div .. => 0xFE00707F#32
  | .divu .. => 0xFE00707F#32
  | .rem .. => 0xFE00707F#32
  | .remu .. => 0xFE00707F#32
  | .lrW .. => 0xF9F0707F#32
  | .scW .. => 0xF800707F#32
  | .amoswapW .. => 0xF800707F#32
  | .amoaddW .. => 0xF800707F#32
  | .amoxorW .. => 0xF800707F#32
  | .amoandW .. => 0xF800707F#32
  | .amoorW .. => 0xF800707F#32
  | .amominW .. => 0xF800707F#32
  | .amomaxW .. => 0xF800707F#32
  | .amominuW .. => 0xF800707F#32
  | .amomaxuW .. => 0xF800707F#32
  | .cAddi4spn .. => 0x0000E003#32
  | .cLw .. => 0x0000E003#32
  | .cSw .. => 0x0000E003#32
  | .cNop .. => 0x0000EF83#32
  | .cAddi .. => 0x0000E003#32
  | .cJal .. => 0x0000E003#32
  | .cLi .. => 0x0000E003#32
  | .cAddi16sp .. => 0x0000EF83#32
  | .cLui .. => 0x0000E003#32
  | .cSrli .. => 0x0000FC03#32
  | .cSrai .. => 0x0000FC03#32
  | .cAndi .. => 0x0000EC03#32
  | .cSub .. => 0x0000FC63#32
  | .cXor .. => 0x0000FC63#32
  | .cOr .. => 0x0000FC63#32
  | .cAnd .. => 0x0000FC63#32
  | .cJ .. => 0x0000E003#32
  | .cBeqz .. => 0x0000E003#32
  | .cBnez .. => 0x0000E003#32
  | .cSlli .. => 0x0000F003#32
  | .cLwsp .. => 0x0000E003#32
  | .cJr .. => 0x0000F07F#32
  | .cMv .. => 0x0000F003#32
  | .cEbreak => 0x0000FFFF#32
  | .cJalr .. => 0x0000F07F#32
  | .cAdd .. => 0x0000F003#32
  | .cSwsp .. => 0x0000E003#32
  | .sh1add .. => 0xFE00707F#32
  | .sh2add .. => 0xFE00707F#32
  | .sh3add .. => 0xFE00707F#32
  | .andn .. => 0xFE00707F#32
  | .orn .. => 0xFE00707F#32
  | .xnor .. => 0xFE00707F#32
  | .clz .. => 0xFFF0707F#32
  | .ctz .. => 0xFFF0707F#32
  | .cpop .. => 0xFFF0707F#32
  | .max .. => 0xFE00707F#32
  | .maxu .. => 0xFE00707F#32
  | .min .. => 0xFE00707F#32
  | .minu .. => 0xFE00707F#32
  | .sextB .. => 0xFFF0707F#32
  | .sextH .. => 0xFFF0707F#32
  | .zextH .. => 0xFFF0707F#32
  | .rol .. => 0xFE00707F#32
  | .ror .. => 0xFE00707F#32
  | .rori .. => 0xFE00707F#32
  | .orcB .. => 0xFFF0707F#32
  | .rev8 .. => 0xFFF0707F#32
  | .bclr .. => 0xFE00707F#32
  | .bclri .. => 0xFE00707F#32
  | .bext .. => 0xFE00707F#32
  | .bexti .. => 0xFE00707F#32
  | .binv .. => 0xFE00707F#32
  | .binvi .. => 0xFE00707F#32
  | .bset .. => 0xFE00707F#32
  | .bseti .. => 0xFE00707F#32
  | .cLbu .. => 0#32
  | .cLhu .. => 0#32
  | .cSb .. => 0#32
  | .cSh .. => 0#32
  | .cLbusp .. => 0#32
  | .cLhusp .. => 0#32
  | .cSbsp .. => 0#32
  | .cShsp .. => 0#32

/-- A row that matches: the 1 bits of its mask, and its instruction. -/
abbrev RowMatch := Nat × Instr

/-- Of two rows that match, the one with more 1 bits in its mask (R156); the first, where they have as many (log 5). -/
def RowMatch.denser (x y : Option RowMatch) : Option RowMatch :=
  match x, y with
  | none, y => y
  | some x, none => some x
  | some x, some y => if x.1 < y.1 then some y else some x

/-- The XW row a parcel matches. -/
def decodeXw : List XwRow → Half → Option RowMatch
  | [], _ => none
  | row :: rows, p =>
    RowMatch.denser (if p &&& row.mask = row.pattern then some (maskOnes row.mask, row.instr p) else none) (decodeXw rows p)

/-- What a fetch delivers (R150): one parcel, or two as a word. -/
inductive Fetched where
  | half (p : Half)
  | full (w : Word)
deriving DecidableEq, Repr

/-- The instruction length in bytes. -/
def Fetched.size : Fetched → Nat
  | .half _ => 2
  | .full _ => 4

/-- The bits as a word: a parcel is zero-extended (92 D20). -/
def Fetched.bits : Fetched → Word
  | .half p => p.setWidth 32
  | .full w => w

/-- The answer of the decoder. -/
inductive Decoded where
  /-- the bits match a row of the member -/
  | instr (i : Instr)
  /-- an illegal instruction: the exception of code 2 (R157 items 1 and 3) -/
  | illegal
  /-- no row on V3B/C, where unknown vendor instructions live: refused (R157 item 2) -/
  | unknown
  /-- fewer bytes than the length bits ask for -/
  | short
deriving DecidableEq, Repr

/-- The row of the opcode table that a parcel matches. -/
def tableMatch (p : Half) : Option RowMatch := (decode16 p).map fun i => (maskOnes i.rowMask, i)

/-- The row the bits match: among the rows of the member, supplied XW rows among them, the one with the most 1 bits in its
mask (R156). -/
def decodeRow (c : Config) (f : Fetched) : Option Instr :=
  match f with
  | .full w => (decode32 w).filter (Instr.onMember c)
  | .half p =>
    let here (m : Option RowMatch) : Option RowMatch := m.filter fun x => x.2.onMember c
    (RowMatch.denser (here (tableMatch p)) (here (decodeXw c.xw p))).map Prod.snd

/-- The words the standard fixes as illegal on every member (R157 item 3). -/
def Fetched.alwaysIllegal : Fetched → Bool
  | .half p => p == 0x0000#16
  | .full w => w == 0xFFFFFFFF#32

/-- The decode procedure (R156, R157). -/
def decode (c : Config) (f : Fetched) : Decoded :=
  if f.alwaysIllegal then .illegal
  else
    match decodeRow c f with
    | some i => .instr i
    | none => if c.variant.isV3A then .illegal else .unknown

/-- A parcel from its two bytes, little-endian (20 R101). -/
def parcel (b0 b1 : Byte) : Half := fieldAt 16 b1 8 ||| fieldAt 16 b0 0

/-- A 32-bit instruction from its two parcels: the one at the lower address holds the low half (20 R101). -/
def joinParcels (p0 p1 : Half) : Word := fieldAt 32 p1 16 ||| fieldAt 32 p0 0

/-- The length rule (R150): a parcel with low bits 11 starts a 32-bit instruction. -/
def Half.isLong (p : Half) : Bool := p.extractLsb' 0 2 == 3#2

/-- Bytes at rising addresses, as a fetch would deliver them. -/
def fetchedOfBytes : List Byte → Option Fetched
  | b0 :: b1 :: rest =>
    if Half.isLong (parcel b0 b1) then
      match rest with
      | b2 :: b3 :: _ => some (.full (joinParcels (parcel b0 b1) (parcel b2 b3)))
      | _ => none
    else some (.half (parcel b0 b1))
  | _ => none

/-- The decoder on any bytes. -/
def decodeBytes (c : Config) (bs : List Byte) : Decoded :=
  match fetchedOfBytes bs with
  | some f => decode c f
  | none => .short

/-- The four bytes of a word in the order of rising addresses (20 R100). -/
def Word.bytes (w : Word) : List Byte :=
  [w.extractLsb' 0 8, w.extractLsb' 8 8, w.extractLsb' 16 8, w.extractLsb' 24 8]

/-- The instruction an opcode-table word stands for: on V3A if the word has a row there, else on V3B (R159). The word is
stored little-endian with zeros above its `nbits` bits. -/
def decodeTableWord (nbits w : Nat) : Option Instr :=
  let bs := Word.bytes (BitVec.ofNat 32 (w % 2 ^ nbits))
  match decodeBytes { Config.default with variant := .v3a } bs with
  | .instr i => some i
  | _ =>
    match decodeBytes { Config.default with variant := .v3b } bs with
    | .instr i => some i
    | _ => none

/-! ## The encoder -/

/-- R-format words. -/
def encR (f7 : BitVec 7) (f3 : BitVec 3) (op : BitVec 7) (rd rs1 rs2 : Reg) : Word := word32 f7 rs2 rs1 f3 rd op
/-- I-format words. -/
def encI (f3 : BitVec 3) (op : BitVec 7) (rd rs1 : Reg) (imm : BitVec 12) : Word :=
  word32 (immHi7 imm) (immLo5 imm) rs1 f3 rd op
/-- S-format words. -/
def encS (f3 : BitVec 3) (op : BitVec 7) (rs2 rs1 : Reg) (imm : BitVec 12) : Word :=
  word32 (immHi7 imm) rs2 rs1 f3 (immLo5 imm) op
/-- B-format words. -/
def encB (f3 : BitVec 3) (op : BitVec 7) (rs1 rs2 : Reg) (imm : BitVec 13) : Word :=
  word32 (immBHi imm) rs2 rs1 f3 (immBLo imm) op
/-- U-format words. -/
def encU (op : BitVec 7) (rd : Reg) (imm : BitVec 20) : Word :=
  word32 (imm.extractLsb' 13 7) (imm.extractLsb' 8 5) (imm.extractLsb' 3 5) (imm.extractLsb' 0 3) rd op
/-- J-format words: `imm[20|10:1|11|19:12]`. -/
def encJ (op : BitVec 7) (rd : Reg) (imm : BitVec 21) : Word :=
  word32 (fieldAt 7 (imm.extractLsb' 20 1) 6 ||| fieldAt 7 (imm.extractLsb' 5 6) 0)
    (fieldAt 5 (imm.extractLsb' 1 4) 1 ||| fieldAt 5 (imm.extractLsb' 11 1) 0)
    (imm.extractLsb' 15 5) (imm.extractLsb' 12 3) rd op
/-- AMO-format words. -/
def encA (f5 : BitVec 5) (rd rs2 rs1 : Reg) (aq rl : BitVec 1) : Word :=
  word32 (fieldAt 7 f5 2 ||| fieldAt 7 aq 1 ||| fieldAt 7 rl 0) rs2 rs1 2#3 rd 0x2F#7
/-- FENCE-format words. -/
def encFence (fm pred succ : BitVec 4) (rs1 rd : Reg) : Word :=
  encI 0#3 0x0F#7 rd rs1 (fieldAt 12 fm 8 ||| fieldAt 12 pred 4 ||| fieldAt 12 succ 0)

/-- CI-format parcels with a 6-bit immediate. -/
def encCI (f3 : BitVec 3) (op : BitVec 2) (rd : Reg) (imm : BitVec 6) : Half :=
  word16 f3 (imm.extractLsb' 5 1) (regHi rd) (regLo rd) (imm.extractLsb' 3 2) (imm.extractLsb' 0 3) op
/-- CR-format parcels. -/
def encCR (b12 : BitVec 1) (rd rs2 : Reg) : Half :=
  word16 4#3 b12 (regHi rd) (regLo rd) (regHi rs2) (regLo rs2) 2#2
/-- CL- and CS-format parcels of `c.lw` and `c.sw`. -/
def encCL (f3 : BitVec 3) (rd rs1 : CReg) (uimm : BitVec 7) : Half :=
  word16 f3 (uimm.extractLsb' 5 1) (uimm.extractLsb' 3 2) rs1
    (fieldAt 2 (uimm.extractLsb' 2 1) 1 ||| fieldAt 2 (uimm.extractLsb' 6 1) 0) rd 0#2
/-- CA-format parcels. -/
def encCA (funct2 : BitVec 2) (rd rs2 : CReg) : Half := word16 4#3 0#1 3#2 rd funct2 rs2 1#2
/-- CB-format parcels of the shifts. -/
def encCShift (hi : BitVec 2) (rd : CReg) (shamt : BitVec 5) : Half := word16 4#3 0#1 hi rd (regHi shamt) (regLo shamt) 1#2
/-- CB-format parcels of the branches. -/
def encCB (f3 : BitVec 3) (rs1 : CReg) (imm : BitVec 9) : Half :=
  word16 f3 (imm.extractLsb' 8 1) (imm.extractLsb' 3 2) rs1 (imm.extractLsb' 6 2)
    (fieldAt 3 (imm.extractLsb' 1 2) 1 ||| fieldAt 3 (imm.extractLsb' 5 1) 0) 1#2
/-- CJ-format parcels. -/
def encCJ (f3 : BitVec 3) (imm : BitVec 12) : Half :=
  word16 f3 (imm.extractLsb' 11 1) (fieldAt 2 (imm.extractLsb' 4 1) 1 ||| fieldAt 2 (imm.extractLsb' 9 1) 0)
    (fieldAt 3 (imm.extractLsb' 8 1) 2 ||| fieldAt 3 (imm.extractLsb' 10 1) 1 ||| fieldAt 3 (imm.extractLsb' 6 1) 0)
    (fieldAt 2 (imm.extractLsb' 7 1) 1 ||| fieldAt 2 (imm.extractLsb' 3 1) 0)
    (fieldAt 3 (imm.extractLsb' 1 2) 1 ||| fieldAt 3 (imm.extractLsb' 5 1) 0) 1#2
/-- CIW-format parcels of `c.addi4spn`. -/
def encCIW (rd : CReg) (uimm : BitVec 10) : Half :=
  word16 0#3 (uimm.extractLsb' 5 1) (fieldAt 2 (uimm.extractLsb' 4 1) 1 ||| fieldAt 2 (uimm.extractLsb' 9 1) 0)
    (uimm.extractLsb' 6 3) (fieldAt 2 (uimm.extractLsb' 2 1) 1 ||| fieldAt 2 (uimm.extractLsb' 3 1) 0) rd 0#2
/-- `c.addi16sp` parcels. -/
def encCAddi16sp (imm : BitVec 10) : Half :=
  word16 3#3 (imm.extractLsb' 9 1) 0#2 2#3 (fieldAt 2 (imm.extractLsb' 4 1) 1 ||| fieldAt 2 (imm.extractLsb' 6 1) 0)
    (fieldAt 3 (imm.extractLsb' 7 2) 1 ||| fieldAt 3 (imm.extractLsb' 5 1) 0) 1#2
/-- `c.lwsp` parcels. -/
def encCLwsp (rd : Reg) (uimm : BitVec 8) : Half :=
  word16 2#3 (uimm.extractLsb' 5 1) (regHi rd) (regLo rd) (uimm.extractLsb' 3 2)
    (fieldAt 3 (uimm.extractLsb' 2 1) 2 ||| fieldAt 3 (uimm.extractLsb' 6 2) 0) 2#2
/-- CSS-format parcels of `c.swsp`. -/
def encCSwsp (rs2 : Reg) (uimm : BitVec 8) : Half :=
  word16 6#3 (uimm.extractLsb' 5 1) (uimm.extractLsb' 3 2)
    (fieldAt 3 (uimm.extractLsb' 2 1) 2 ||| fieldAt 3 (uimm.extractLsb' 6 2) 0) (regHi rs2) (regLo rs2) 2#2

/-- The parcel of an XW instruction under the first supplied row of its operation; none if no row is supplied. -/
def encodeXw (rows : List XwRow) (op : XwOp) (data base : Reg) (uimm : Word) : Option Half :=
  match rows.find? (fun row => row.op == op) with
  | none => none
  | some row =>
    match op with
    | .lbu | .lhu | .sb | .sh =>
      some (row.pattern ||| row.data.place data ||| row.base.place base ||| row.placeOffset uimm)
    | .lbusp | .lhusp | .sbsp | .shsp => some (row.pattern ||| row.data.place data ||| row.placeOffset uimm)

/-- The bits of an instruction; an XW instruction has bits only when `XW_DECODE` supplies its row. -/
def Instr.encode (c : Config) : Instr → Option Fetched
  | .lui rd imm => some (.full (encU 0x37#7 rd imm))
  | .auipc rd imm => some (.full (encU 0x17#7 rd imm))
  | .jal rd imm => some (.full (encJ 0x6F#7 rd imm))
  | .jalr rd rs1 imm => some (.full (encI 0#3 0x67#7 rd rs1 imm))
  | .beq rs1 rs2 imm => some (.full (encB 0#3 0x63#7 rs1 rs2 imm))
  | .bne rs1 rs2 imm => some (.full (encB 1#3 0x63#7 rs1 rs2 imm))
  | .blt rs1 rs2 imm => some (.full (encB 4#3 0x63#7 rs1 rs2 imm))
  | .bge rs1 rs2 imm => some (.full (encB 5#3 0x63#7 rs1 rs2 imm))
  | .bltu rs1 rs2 imm => some (.full (encB 6#3 0x63#7 rs1 rs2 imm))
  | .bgeu rs1 rs2 imm => some (.full (encB 7#3 0x63#7 rs1 rs2 imm))
  | .lb rd rs1 imm => some (.full (encI 0#3 0x03#7 rd rs1 imm))
  | .lh rd rs1 imm => some (.full (encI 1#3 0x03#7 rd rs1 imm))
  | .lw rd rs1 imm => some (.full (encI 2#3 0x03#7 rd rs1 imm))
  | .lbu rd rs1 imm => some (.full (encI 4#3 0x03#7 rd rs1 imm))
  | .lhu rd rs1 imm => some (.full (encI 5#3 0x03#7 rd rs1 imm))
  | .sb rs2 rs1 imm => some (.full (encS 0#3 0x23#7 rs2 rs1 imm))
  | .sh rs2 rs1 imm => some (.full (encS 1#3 0x23#7 rs2 rs1 imm))
  | .sw rs2 rs1 imm => some (.full (encS 2#3 0x23#7 rs2 rs1 imm))
  | .addi rd rs1 imm => some (.full (encI 0#3 0x13#7 rd rs1 imm))
  | .slti rd rs1 imm => some (.full (encI 2#3 0x13#7 rd rs1 imm))
  | .sltiu rd rs1 imm => some (.full (encI 3#3 0x13#7 rd rs1 imm))
  | .xori rd rs1 imm => some (.full (encI 4#3 0x13#7 rd rs1 imm))
  | .ori rd rs1 imm => some (.full (encI 6#3 0x13#7 rd rs1 imm))
  | .andi rd rs1 imm => some (.full (encI 7#3 0x13#7 rd rs1 imm))
  | .slli rd rs1 shamt => some (.full (encR 0x00#7 1#3 0x13#7 rd rs1 shamt))
  | .srli rd rs1 shamt => some (.full (encR 0x00#7 5#3 0x13#7 rd rs1 shamt))
  | .srai rd rs1 shamt => some (.full (encR 0x20#7 5#3 0x13#7 rd rs1 shamt))
  | .add rd rs1 rs2 => some (.full (encR 0x00#7 0#3 0x33#7 rd rs1 rs2))
  | .sub rd rs1 rs2 => some (.full (encR 0x20#7 0#3 0x33#7 rd rs1 rs2))
  | .sll rd rs1 rs2 => some (.full (encR 0x00#7 1#3 0x33#7 rd rs1 rs2))
  | .slt rd rs1 rs2 => some (.full (encR 0x00#7 2#3 0x33#7 rd rs1 rs2))
  | .sltu rd rs1 rs2 => some (.full (encR 0x00#7 3#3 0x33#7 rd rs1 rs2))
  | .xor rd rs1 rs2 => some (.full (encR 0x00#7 4#3 0x33#7 rd rs1 rs2))
  | .srl rd rs1 rs2 => some (.full (encR 0x00#7 5#3 0x33#7 rd rs1 rs2))
  | .sra rd rs1 rs2 => some (.full (encR 0x20#7 5#3 0x33#7 rd rs1 rs2))
  | .or rd rs1 rs2 => some (.full (encR 0x00#7 6#3 0x33#7 rd rs1 rs2))
  | .and rd rs1 rs2 => some (.full (encR 0x00#7 7#3 0x33#7 rd rs1 rs2))
  | .fence fm pred succ rs1 rd => some (.full (encFence fm pred succ rs1 rd))
  | .ecall => some (.full 0x00000073#32)
  | .ebreak => some (.full 0x00100073#32)
  | .csrrw rd csr rs1 => some (.full (encI 1#3 0x73#7 rd rs1 csr))
  | .csrrs rd csr rs1 => some (.full (encI 2#3 0x73#7 rd rs1 csr))
  | .csrrc rd csr rs1 => some (.full (encI 3#3 0x73#7 rd rs1 csr))
  | .csrrwi rd csr rs1 => some (.full (encI 5#3 0x73#7 rd rs1 csr))
  | .csrrsi rd csr rs1 => some (.full (encI 6#3 0x73#7 rd rs1 csr))
  | .csrrci rd csr rs1 => some (.full (encI 7#3 0x73#7 rd rs1 csr))
  | .mret => some (.full 0x30200073#32)
  | .wfi => some (.full 0x10500073#32)
  | .fenceI imm rs1 rd => some (.full (encI 1#3 0x0F#7 rd rs1 imm))
  | .mul rd rs1 rs2 => some (.full (encR 0x01#7 0#3 0x33#7 rd rs1 rs2))
  | .mulh rd rs1 rs2 => some (.full (encR 0x01#7 1#3 0x33#7 rd rs1 rs2))
  | .mulhsu rd rs1 rs2 => some (.full (encR 0x01#7 2#3 0x33#7 rd rs1 rs2))
  | .mulhu rd rs1 rs2 => some (.full (encR 0x01#7 3#3 0x33#7 rd rs1 rs2))
  | .div rd rs1 rs2 => some (.full (encR 0x01#7 4#3 0x33#7 rd rs1 rs2))
  | .divu rd rs1 rs2 => some (.full (encR 0x01#7 5#3 0x33#7 rd rs1 rs2))
  | .rem rd rs1 rs2 => some (.full (encR 0x01#7 6#3 0x33#7 rd rs1 rs2))
  | .remu rd rs1 rs2 => some (.full (encR 0x01#7 7#3 0x33#7 rd rs1 rs2))
  | .lrW rd rs1 aq rl => some (.full (encA 0x02#5 rd 0#5 rs1 aq rl))
  | .scW rd rs2 rs1 aq rl => some (.full (encA 0x03#5 rd rs2 rs1 aq rl))
  | .amoswapW rd rs2 rs1 aq rl => some (.full (encA 0x01#5 rd rs2 rs1 aq rl))
  | .amoaddW rd rs2 rs1 aq rl => some (.full (encA 0x00#5 rd rs2 rs1 aq rl))
  | .amoxorW rd rs2 rs1 aq rl => some (.full (encA 0x04#5 rd rs2 rs1 aq rl))
  | .amoandW rd rs2 rs1 aq rl => some (.full (encA 0x0C#5 rd rs2 rs1 aq rl))
  | .amoorW rd rs2 rs1 aq rl => some (.full (encA 0x08#5 rd rs2 rs1 aq rl))
  | .amominW rd rs2 rs1 aq rl => some (.full (encA 0x10#5 rd rs2 rs1 aq rl))
  | .amomaxW rd rs2 rs1 aq rl => some (.full (encA 0x14#5 rd rs2 rs1 aq rl))
  | .amominuW rd rs2 rs1 aq rl => some (.full (encA 0x18#5 rd rs2 rs1 aq rl))
  | .amomaxuW rd rs2 rs1 aq rl => some (.full (encA 0x1C#5 rd rs2 rs1 aq rl))
  | .cAddi4spn rd uimm => some (.half (encCIW rd uimm))
  | .cLw rd rs1 uimm => some (.half (encCL 2#3 rd rs1 uimm))
  | .cSw rs2 rs1 uimm => some (.half (encCL 6#3 rs2 rs1 uimm))
  | .cNop imm => some (.half (encCI 0#3 1#2 0#5 imm))
  | .cAddi rd imm => some (.half (encCI 0#3 1#2 rd imm))
  | .cJal imm => some (.half (encCJ 1#3 imm))
  | .cLi rd imm => some (.half (encCI 2#3 1#2 rd imm))
  | .cAddi16sp imm => some (.half (encCAddi16sp imm))
  | .cLui rd imm => some (.half (encCI 3#3 1#2 rd imm))
  | .cSrli rd shamt => some (.half (encCShift 0#2 rd shamt))
  | .cSrai rd shamt => some (.half (encCShift 1#2 rd shamt))
  | .cAndi rd imm => some (.half (word16 4#3 (imm.extractLsb' 5 1) 2#2 rd (imm.extractLsb' 3 2) (imm.extractLsb' 0 3) 1#2))
  | .cSub rd rs2 => some (.half (encCA 0#2 rd rs2))
  | .cXor rd rs2 => some (.half (encCA 1#2 rd rs2))
  | .cOr rd rs2 => some (.half (encCA 2#2 rd rs2))
  | .cAnd rd rs2 => some (.half (encCA 3#2 rd rs2))
  | .cJ imm => some (.half (encCJ 5#3 imm))
  | .cBeqz rs1 imm => some (.half (encCB 6#3 rs1 imm))
  | .cBnez rs1 imm => some (.half (encCB 7#3 rs1 imm))
  | .cSlli rd shamt => some (.half (word16 0#3 0#1 (regHi rd) (regLo rd) (regHi shamt) (regLo shamt) 2#2))
  | .cLwsp rd uimm => some (.half (encCLwsp rd uimm))
  | .cJr rs1 => some (.half (encCR 0#1 rs1 0#5))
  | .cMv rd rs2 => some (.half (encCR 0#1 rd rs2))
  | .cEbreak => some (.half (encCR 1#1 0#5 0#5))
  | .cJalr rs1 => some (.half (encCR 1#1 rs1 0#5))
  | .cAdd rd rs2 => some (.half (encCR 1#1 rd rs2))
  | .cSwsp rs2 uimm => some (.half (encCSwsp rs2 uimm))
  | .sh1add rd rs1 rs2 => some (.full (encR 0x10#7 2#3 0x33#7 rd rs1 rs2))
  | .sh2add rd rs1 rs2 => some (.full (encR 0x10#7 4#3 0x33#7 rd rs1 rs2))
  | .sh3add rd rs1 rs2 => some (.full (encR 0x10#7 6#3 0x33#7 rd rs1 rs2))
  | .andn rd rs1 rs2 => some (.full (encR 0x20#7 7#3 0x33#7 rd rs1 rs2))
  | .orn rd rs1 rs2 => some (.full (encR 0x20#7 6#3 0x33#7 rd rs1 rs2))
  | .xnor rd rs1 rs2 => some (.full (encR 0x20#7 4#3 0x33#7 rd rs1 rs2))
  | .clz rd rs1 => some (.full (encR 0x30#7 1#3 0x13#7 rd rs1 0#5))
  | .ctz rd rs1 => some (.full (encR 0x30#7 1#3 0x13#7 rd rs1 1#5))
  | .cpop rd rs1 => some (.full (encR 0x30#7 1#3 0x13#7 rd rs1 2#5))
  | .max rd rs1 rs2 => some (.full (encR 0x05#7 6#3 0x33#7 rd rs1 rs2))
  | .maxu rd rs1 rs2 => some (.full (encR 0x05#7 7#3 0x33#7 rd rs1 rs2))
  | .min rd rs1 rs2 => some (.full (encR 0x05#7 4#3 0x33#7 rd rs1 rs2))
  | .minu rd rs1 rs2 => some (.full (encR 0x05#7 5#3 0x33#7 rd rs1 rs2))
  | .sextB rd rs1 => some (.full (encR 0x30#7 1#3 0x13#7 rd rs1 4#5))
  | .sextH rd rs1 => some (.full (encR 0x30#7 1#3 0x13#7 rd rs1 5#5))
  | .zextH rd rs1 => some (.full (encR 0x04#7 4#3 0x33#7 rd rs1 0#5))
  | .rol rd rs1 rs2 => some (.full (encR 0x30#7 1#3 0x33#7 rd rs1 rs2))
  | .ror rd rs1 rs2 => some (.full (encR 0x30#7 5#3 0x33#7 rd rs1 rs2))
  | .rori rd rs1 shamt => some (.full (encR 0x30#7 5#3 0x13#7 rd rs1 shamt))
  | .orcB rd rs1 => some (.full (encR 0x14#7 5#3 0x13#7 rd rs1 7#5))
  | .rev8 rd rs1 => some (.full (encR 0x34#7 5#3 0x13#7 rd rs1 24#5))
  | .bclr rd rs1 rs2 => some (.full (encR 0x24#7 1#3 0x33#7 rd rs1 rs2))
  | .bclri rd rs1 shamt => some (.full (encR 0x24#7 1#3 0x13#7 rd rs1 shamt))
  | .bext rd rs1 rs2 => some (.full (encR 0x24#7 5#3 0x33#7 rd rs1 rs2))
  | .bexti rd rs1 shamt => some (.full (encR 0x24#7 5#3 0x13#7 rd rs1 shamt))
  | .binv rd rs1 rs2 => some (.full (encR 0x34#7 1#3 0x33#7 rd rs1 rs2))
  | .binvi rd rs1 shamt => some (.full (encR 0x34#7 1#3 0x13#7 rd rs1 shamt))
  | .bset rd rs1 rs2 => some (.full (encR 0x14#7 1#3 0x33#7 rd rs1 rs2))
  | .bseti rd rs1 shamt => some (.full (encR 0x14#7 1#3 0x13#7 rd rs1 shamt))
  | .cLbu d b uimm => (encodeXw c.xw .lbu d b uimm).map .half
  | .cLhu d b uimm => (encodeXw c.xw .lhu d b uimm).map .half
  | .cSb d b uimm => (encodeXw c.xw .sb d b uimm).map .half
  | .cSh d b uimm => (encodeXw c.xw .sh d b uimm).map .half
  | .cLbusp d uimm => (encodeXw c.xw .lbusp d 0#5 uimm).map .half
  | .cLhusp d uimm => (encodeXw c.xw .lhusp d 0#5 uimm).map .half
  | .cSbsp d uimm => (encodeXw c.xw .sbsp d 0#5 uimm).map .half
  | .cShsp d uimm => (encodeXw c.xw .shsp d 0#5 uimm).map .half

end Sys2Proof
end

