-- ==== Sys2Proof/Machine/State.lean ====
section
/-! DEFINITION. The machine's state as plain data (10_state.md), the reasons a step can stop, and the state after reset.

A register is held as its fields: every bit the tables call reserved reads 0 and drops writes (10 R42), so it needs no
storage. Words that software reads are put together in Machine/Csr.lean and Machine/Device.lean. -/

namespace Sys2Proof.Machine

/-- The privilege mode (10 R28): only M and U are ever held. -/
inductive Priv where
  | user
  | machine
deriving DecidableEq, Repr

/-- The number of bytes a data access moves (20 R110). -/
inductive Width where
  | byte
  | half
  | word
deriving DecidableEq, Repr

/-- `mstatus` (10 R43): MIE bit 3, MPIE bit 7, MPP bits 12 to 11. -/
structure Mstatus where
  mie : Bool
  mpie : Bool
  mpp : Priv
deriving DecidableEq, Repr

/-- `mtvec` (10 R44): BASEADDR[31:10], MODE1, MODE0; bits 9 to 2 are fixed 0. -/
structure Mtvec where
  base : BitVec 22
  mode1 : Bool
  mode0 : Bool
deriving DecidableEq, Repr

/-- `intsyscr`, 0x804 (10 R61). -/
structure Intsyscr where
  lock : Bool
  gihwstknen : Bool
  pmtcfg : BitVec 2
  inesten : Bool
  hwstken : Bool
deriving DecidableEq, Repr

/-- `corecfgr`, 0xBC0 (10 R62). Of FETCH_MODE only bit 0 is held: a write of `0b10` or `0b11` is refused. -/
structure Corecfgr where
  nmiIe : Bool
  ieRemapEn : Bool
  romLoopAcc : Bool
  romJumpAcc : Bool
  prefetch : Bool
deriving DecidableEq, Repr

/-- `inestcr`, 0xBC1 (10 R63). NEST_STA is computed from the nesting level; NEST_LVL holds `0b00` or `0b01`. -/
structure Inestcr where
  nestOv : Bool
  nestLvl : Bool
deriving DecidableEq, Repr

/-- The CSRs a program reads and writes (10 R43 to R48, R61 to R63); the PMP, trigger and debug CSRs stand beside them. -/
structure Csrs where
  mstatus : Mstatus
  mtvec : Mtvec
  mscratch : Word
  mepc : Word
  mcause : Word
  mtval : Word
  intsyscr : Intsyscr
  corecfgr : Corecfgr
  inestcr : Inestcr
deriving DecidableEq, Repr

/-- `pmp<i>cfg.A` (10 R49). -/
inductive PmpMode where
  | off
  | tor
  | na4
  | napot
deriving DecidableEq, Repr

/-- One byte of `pmpcfg0` (10 R49). -/
structure PmpCfg where
  l : Bool
  a : PmpMode
  x : Bool
  w : Bool
  r : Bool
deriving DecidableEq, Repr

/-- The four PMP regions (10 R49, R50). -/
structure Pmp where
  cfg : Vector PmpCfg 4
  addr : Vector Word 4
deriving DecidableEq, Repr

/-- One hardware breakpoint channel: the writable fields of `tdata1` (10 R55; `range` is MATCH) and `tdata2` (10 R56). -/
structure TriggerChannel where
  action : Bool
  range : Bool
  m : Bool
  u : Bool
  execute : Bool
  store : Bool
  load : Bool
  tdata2 : Word
deriving DecidableEq, Repr

/-- The trigger CSRs (10 R51, R55, R56). -/
structure Triggers where
  select : BitVec 2
  channel : Vector TriggerChannel 4
deriving DecidableEq, Repr

/-- `dcsr`, 0x7B0 (10 R57). -/
structure Dcsr where
  ebreakm : Bool
  ebreaku : Bool
  stepie : Bool
  stoptime : Bool
  cause : BitVec 3
  step : Bool
  prv : Priv
deriving DecidableEq, Repr

/-- The CSRs of debug mode (10 R57 to R59). -/
structure DebugCsrs where
  dcsr : Dcsr
  dpc : Word
  dscratch0 : Word
  dscratch1 : Word
deriving DecidableEq, Repr

/-- The five trap CSR values a nested entry overwrites (60 R528). -/
structure TrapCsrs where
  mepc : Word
  mcause : Word
  mtval : Word
  mpie : Bool
  mpp : Priv
deriving DecidableEq, Repr

/-- One active trap (10 R31, 60 R520): its number, whether its entry pushed a hardware-stack frame, and the outer values of
the trap CSRs, kept for the draw of 60 R528. -/
structure NestEntry where
  actidx : IrqNum
  stacked : Bool
  outer : TrapCsrs
deriving DecidableEq, Repr

/-- The interrupt controller (60 R540). `en` holds the programmable numbers only; the fixed ones are computed by member. -/
structure Pfic where
  en : BitVec 256
  pend : BitVec 256
  prio : Vector Byte 256
  threshold : Byte
  /-- PFIC_VTFBADDRR[31:28], V3A (60 R545) -/
  vtfBase : BitVec 4
  /-- PFIC_CFGR.NESTCTRL, V3A (60 R546) -/
  nestCtrl : Bool
  /-- PFIC_CFGR.HWSTKCTRL, V3A (60 R546) -/
  hwstkCtrl : Bool
  /-- PFIC_VTFIDR, V3B/C (60 R548) -/
  vtfId : Vector Byte 4
  /-- PFIC_VTFADDRR0 to 3 (60 R549) -/
  vtfAddr : Vector Word 4
  sevonpend : Bool
  wfitowfe : Bool
  sleepdeep : Bool
  sleeponexit : Bool
deriving DecidableEq, Repr

/-- The system timer (61 R600 to R604). `cntHi` and `cmpHi` are the upper halves of V3A. -/
structure SysTick where
  mode : Bool
  stre : Bool
  stclk : Bool
  stie : Bool
  ste : Bool
  swie : Bool
  cntif : Bool
  cnt : Word
  cntHi : Word
  cmp : Word
  cmpHi : Word
deriving DecidableEq, Repr

/-- The debug module (61 R620 to R630). `running`: the halted core executes the program buffer. `reply`: the last value the
debug host read. -/
structure DebugModule where
  data0 : Word
  data1 : Word
  haltreq : Bool
  ndmreset : Bool
  dmactive : Bool
  havereset : Bool
  resumeack : Bool
  cmderr : BitVec 3
  command : Word
  autoProgbuf : BitVec 16
  autoData : BitVec 12
  progbuf : Vector Word 8
  running : Bool
  reply : Word
deriving DecidableEq, Repr

/-- How the core sleeps (10 R35). -/
inductive SleepKind where
  | wfi
  | wfe
deriving DecidableEq, Repr

/-- A completed store to a device register whose effect is still to come (20 R122). -/
structure DevWrite where
  addr : Word
  width : Width
  value : Word
deriving DecidableEq, Repr

/-- One input of the outside world, or one chore, at an instruction boundary (61 R605, 60 R564, 92 D29). -/
inductive Act where
  /-- a SysTick tick or a device write taking effect -/
  | chore (c : Chore)
  /-- the source of interrupt `n` raises its request (60 R564) -/
  | line (n : IrqNum)
  /-- a platform event (61 R614) -/
  | event
  /-- another bus master writes a byte of RAM (20 R121) -/
  | agentWrite (addr : Word) (b : Byte)
  /-- the debug host writes a debug-module register (61 R620) -/
  | dmiWrite (addr : BitVec 7) (v : Word)
  /-- the debug host reads a debug-module register -/
  | dmiRead (addr : BitVec 7)
  /-- power-on reset (70 R650) -/
  | powerOn
deriving DecidableEq, Repr

/-- What the outside world does at one boundary, and its choices there. -/
structure Boundary where
  acts : List Act
  defer : Bool
  wake : Bool
deriving DecidableEq, Repr

/-- A store as an observer may still miss it: each byte it wrote, with the byte's earlier content. -/
abbrev Overwrite := List (Nat × Option Byte)

/-- The whole machine. INVENTORY.md lists every field with the rule that names it. -/
structure State where
  cfg : Config
  /-- slot 0 is not used: x0 reads 0 (10 R21) -/
  regs : Vector Word 32
  pc : Word
  priv : Priv
  csr : Csrs
  pmp : Pmp
  trig : Triggers
  dbg : DebugCsrs
  /-- active traps, innermost first -/
  nest : List NestEntry
  /-- the hardware-stack frames of levels 1 and 2 -/
  hpe : Vector (Vector Word 16) 2
  pfic : Pfic
  stk : SysTick
  dm : DebugModule
  reservation : Option Word
  sleep : Option SleepKind
  eventPending : Bool
  debugMode : Bool
  /-- memory bytes, addresses strictly rising; a byte not listed holds no value -/
  mem : List Host.Cell
  /-- stores since the last `fence.i`, newest first, which fetch may still miss (20 R126) -/
  stale : List Overwrite
  /-- stores of the hart since the last `fence`, newest first, which the debug module may still miss (20 R121) -/
  unseen : List Overwrite
  /-- device writes still to take effect, oldest first -/
  deviceQueue : List DevWrite
  /-- the PMP registers before the program's CSR write in the instruction just executed; none once other code takes over -/
  pmpBefore : Option Pmp
  /-- inputs of the coming boundaries -/
  env : List Boundary
  /-- how many free values have been taken -/
  draws : Nat
deriving DecidableEq, Repr

/-- Why the machine faults: the run is marked faulted and nothing is concluded from the state after it. Every one is safe. -/
inductive Fault where
  /-- load access fault, code 5, imprecise (20 R120, 92 D23); raised by loads and `lr.w`. Safe. -/
  | loadAccess (addr : Word)
  /-- store or AMO access fault, code 7, imprecise (20 R120, 92 D23); raised by stores, `sc.w` and the AMOs. Safe. -/
  | storeAccess (addr : Word)
  /-- a load or fetch of a memory byte that holds no value (70 R651, log 17). Safe. -/
  | unwrittenMemory (addr : Word)
deriving DecidableEq, Repr

/-- Why the model refuses: the spec gives the situation no meaning. Every one is safe: no step is claimed. -/
inductive Refusal where
  /-- an instruction of the table without a meaning in this model; no arm raises it. Safe. -/
  | notModelled (mnemonic : String)
  /-- a misaligned load or store under `MISALIGNED_POLICY = refuse` (20 R104, 92 D2). Safe. -/
  | misalignedAccess (addr : Word)
  /-- a CSR instruction on 0x800, 0x804, 0xBC0 or 0xBC1 on V3A (41 R262 step 1, 92 D8). Safe. -/
  | vendorCsrOnV3A (num : CsrNum)
  /-- a machine-mode write of tdata1 or tdata2 (41 R262 step 6). Safe. -/
  | triggerWrite (num : CsrNum)
  /-- a reserved FETCH_MODE value written to corecfgr (10 R62, 92 D9). Safe. -/
  | reservedFetchMode
  /-- a trap with mtvec[1:0] = 0b10 (60 R524, 92 D18). Safe. -/
  | mtvecMode
  /-- an address-mode vector entry with bit 0 set (60 R524, 92 D17). Safe. -/
  | oddVectorEntry
  /-- the vector-table read failed (60 R524). Safe. -/
  | vectorRead (addr : Word)
  /-- a V3A VTF target with bit 0 set (10 R27, log 31). Safe. -/
  | oddVtfTarget
  /-- mret with mepc[0] = 1 (60 R526, 92 D38). Safe. -/
  | oddMepc
  /-- mret from the overflow level (60 R526, R537). Safe. -/
  | mretFromOverflow
  /-- mret with hardware stacking on after an entry without it (60 R526, R532). Safe. -/
  | unstackWithoutFrame
  /-- a trap at nesting level 2 on V3A (60 R537, 92 D48). Safe. -/
  | thirdLevelOnV3A
  /-- a trap in the overflow state (60 R537). Safe. -/
  | trapInOverflow
  /-- bits that match no row on V3B/C (30 R157, 46 R450, 92 D6). Safe. -/
  | unknownEncoding (bits : Word)
  /-- VTF on NMI or on a taken exception's number (60 R560, 92 D49). Safe. -/
  | vtfOnFixed (n : IrqNum)
  /-- two enabled VTF channels with one number (60 R560, 92 D49). Safe. -/
  | vtfDuplicate (n : IrqNum)
  /-- a store that pends interrupt number 3, or a boundary at which it is pending (60 R557, 92 D50). Safe. -/
  | softwarePendedExc
  /-- a device register at a width the rules do not define (20 R112, 92 D33). Safe. -/
  | deviceWidth (addr : Word)
  /-- a load, store or fetch at an address of the PFIC or SysTick block that no table of the member names (20 R114, 92 D33).
  Safe. -/
  | deviceUnnamed (addr : Word)
  /-- a device of the platform (00 R6, 92 D4). Safe. -/
  | platformDevice (addr : Word)
  /-- PFIC_CFGR: set and clear of one pending bit in one write (60 R546). Safe. -/
  | cfgrConflict
  /-- PFIC_CFGR.PFICRESET without a key (60 R546), or from inside a handler (70 R653, 92 D56). Safe. -/
  | pficReset
  /-- an AMO, `lr.w` or `sc.w` on a device register of the core (70 R677, 92 D33, log 36). Safe. -/
  | atomicOnDevice (addr : Word)
  /-- a firing trigger with ACTION = 1 (61 R634). Safe. -/
  | triggerAction
  /-- a range trigger with tdata2 all ones (61 R634). Safe. -/
  | triggerAllOnes
  /-- the next fetch relies on a PMP change of the code that runs (20 R140, 92 D12). Safe. -/
  | pmpNextFetch (addr : Word)
  /-- resume with an odd dpc (61 R632). Safe. -/
  | oddDpc
  /-- the program buffer runs off its end (61 R630). Safe. -/
  | progbufEnd
deriving DecidableEq, Repr

/-- `mstatus` after reset: 0, so MPP is U (10 R43). -/
def Mstatus.reset : Mstatus := ⟨false, false, .user⟩

/-- The CSRs after reset (10 R70). -/
def Csrs.reset : Csrs where
  mstatus := Mstatus.reset
  mtvec := ⟨0#22, false, false⟩
  mscratch := 0#32
  mepc := 0#32
  mcause := 0#32
  mtval := 0#32
  intsyscr := ⟨false, false, 0#2, true, false⟩
  corecfgr := ⟨false, false, false, false, true⟩
  inestcr := ⟨false, false⟩

/-- PMP after reset: OFF and unlocked; the addresses are unspecified, 0 here (DESIGN CHOICE, log 15). -/
def Pmp.reset : Pmp where
  cfg := Vector.replicate 4 ⟨false, .off, false, false, false⟩
  addr := Vector.replicate 4 0#32

/-- Triggers after reset: every enable 0; `tselect` and `tdata2` are unspecified, 0 here (DESIGN CHOICE, log 15). -/
def Triggers.reset : Triggers where
  select := 0#2
  channel := Vector.replicate 4 ⟨false, false, false, false, false, false, false, 0#32⟩

/-- The debug CSRs after reset: 0 (10 R57 to R59, R70). 91 N12 and 93 U2 count `dpc` and `dscratch0`, `dscratch1` among the
registers whose reset value is printed X; the rules state 0 and are followed (log 15). -/
def DebugCsrs.reset : DebugCsrs := ⟨⟨false, false, false, false, 0#3, false, .user⟩, 0#32, 0#32, 0#32⟩

/-- The PFIC after reset (60 R541); V3B/C VTF addresses are unspecified but for bit 0, 0 here (DESIGN CHOICE, log 15). -/
def Pfic.reset : Pfic where
  en := 0#256
  pend := 0#256
  prio := Vector.replicate 256 0#8
  threshold := 0#8
  vtfBase := 0#4
  nestCtrl := false
  hwstkCtrl := false
  vtfId := Vector.replicate 4 0#8
  vtfAddr := Vector.replicate 4 0#32
  sevonpend := false
  wfitowfe := false
  sleepdeep := false
  sleeponexit := false

/-- SysTick after reset (61 R600): stopped; count and compare are unspecified, 0 here (DESIGN CHOICE, log 15). -/
def SysTick.reset : SysTick where
  mode := false
  stre := false
  stclk := false
  stie := false
  ste := false
  swie := false
  cntif := false
  cnt := 0#32
  cntHi := 0#32
  cmp := 0#32
  cmpHi := 0#32

/-- The debug module after a power-on reset (61 R620). `havereset` starts at 0 as 61 R623 prints it, although 70 R652 has any
reset of the core set it (DESIGN CHOICE, log 49). -/
def DebugModule.reset : DebugModule where
  data0 := 0#32
  data1 := 0#32
  haltreq := false
  ndmreset := false
  dmactive := false
  havereset := false
  resumeack := false
  cmderr := 0#3
  command := 0#32
  autoProgbuf := 0#16
  autoData := 0#12
  progbuf := Vector.replicate 8 0#32
  running := false
  reply := 0#32

/-- The machine right after power-on reset (10 R70, 70 R650), with the default parameters. x1 to x31 have no reset value in
the spec and are 0 here (DESIGN CHOICE, log 14). -/
def State.reset : State where
  cfg := Config.default
  regs := Vector.replicate 32 0#32
  pc := Config.default.resetPc
  priv := .machine
  csr := Csrs.reset
  pmp := Pmp.reset
  trig := Triggers.reset
  dbg := DebugCsrs.reset
  nest := []
  hpe := Vector.replicate 2 (Vector.replicate 16 0#32)
  pfic := Pfic.reset
  stk := SysTick.reset
  dm := DebugModule.reset
  reservation := none
  sleep := none
  eventPending := false
  debugMode := false
  mem := []
  stale := []
  unseen := []
  deviceQueue := []
  pmpBefore := none
  env := []
  draws := 0

end Sys2Proof.Machine
end

