-- ==== Sys2Proof/Machine/Memory.lean ====
section
/-! DEFINITION. Memory as a list of bytes in one canonical form, byte order (20_memory.md R100 to R102), the platform's
regions (R116), and the records of stores that fetch and the debug module may still miss (R121, R126). -/

namespace Sys2Proof.Machine

/-- The byte at an address; `none` where nothing has been written (log 17). -/
def Memory.get : List Host.Cell → Nat → Option Byte
  | [], _ => none
  | (k, v) :: rest, a => if k = a then some v else Memory.get rest a

/-- Write one byte, keeping the addresses strictly rising. -/
def Memory.set : List Host.Cell → Nat → Byte → List Host.Cell
  | [], a, b => [(a, b)]
  | (k, v) :: rest, a, b =>
    if a < k then (a, b) :: (k, v) :: rest
    else if a = k then (a, b) :: rest
    else (k, v) :: Memory.set rest a b

/-- Write bytes at rising addresses. -/
def Memory.setAll : List Host.Cell → List Word → List Byte → List Host.Cell
  | m, a :: as, b :: bs => Memory.setAll (Memory.set m a.toNat b) as bs
  | m, _, _ => m

/-- Give one byte back an earlier content. -/
def Memory.put (m : List Host.Cell) (a : Nat) : Option Byte → List Host.Cell
  | some b => Memory.set m a b
  | none => m.filter (fun c => c.1 != a)

/-- Memory before a store. -/
def Memory.undo (m : List Host.Cell) (o : Overwrite) : List Host.Cell := o.foldl (fun m e => Memory.put m e.1 e.2) m

/-- The canonical form: addresses strictly rising and inside the 32-bit space. An unlisted address has no value, so no
entry equals what an unlisted address reads as. -/
def Memory.wf (m : List Host.Cell) : Bool :=
  decide (m.Pairwise (fun c d => c.1 < d.1)) && m.all (fun c => decide (c.1 < 2 ^ 32))

/-- The number of bytes of a width. -/
def Width.size : Width → Nat
  | .byte => 1
  | .half => 2
  | .word => 4

/-- The addresses of an access, in rising order; addresses are modulo 2^32. -/
def Width.addrs (w : Width) (a : Word) : List Word :=
  match w with
  | .byte => [a]
  | .half => [a, a + 1#32]
  | .word => [a, a + 1#32, a + 2#32, a + 3#32]

/-- Natural alignment (20 R108). -/
def Width.aligned (w : Width) (a : Word) : Bool :=
  match w with
  | .byte => true
  | .half => a.extractLsb' 0 1 == 0#1
  | .word => a.extractLsb' 0 2 == 0#2

/-- The low bytes of a value that a store of this width moves, the least significant first (20 R100). -/
def Width.bytes (w : Width) (v : Word) : List Byte :=
  match w with
  | .byte => [v.extractLsb' 0 8]
  | .half => [v.extractLsb' 0 8, v.extractLsb' 8 8]
  | .word => [v.extractLsb' 0 8, v.extractLsb' 8 8, v.extractLsb' 16 8, v.extractLsb' 24 8]

/-- Bytes in rising address order as one value, little-endian (20 R100), zero-extended. -/
def assemble : List Byte → Word
  | [] => 0#32
  | b :: rest => b.setWidth 32 ||| (assemble rest <<< 8)

/-- The byte of memory at an address. -/
def State.byteAt (s : State) (a : Word) : Option Byte := Memory.get s.mem a.toNat

/-- One store as its record: the bytes at its addresses before it. -/
def State.overwrite (s : State) (as : List Word) : Overwrite := as.map (fun a => (a.toNat, s.byteAt a))

/-- One store to memory: all its bytes land together; fetch and the debug module may still miss it (20 R111, R121, R126). -/
def State.setBytes (s : State) (as : List Word) (bs : List Byte) : State :=
  { s with
    mem := Memory.setAll s.mem as bs
    stale := s.overwrite as :: s.stale
    unseen := s.overwrite as :: s.unseen }

/-- Read the bytes at some addresses: the first address that holds no value, or all the bytes. -/
def State.bytesAt (s : State) : List Word → Except Word (List Byte)
  | [] => .ok []
  | a :: as =>
    match s.byteAt a with
    | none => .error a
    | some b =>
      match s.bytesAt as with
      | .ok bs => .ok (b :: bs)
      | .error e => .error e

/-- The region an address lies in (20 R116); the first that contains it. -/
def regionAt : List Region → Nat → Option RegionKind
  | [], _ => none
  | r :: rest, a => if r.base ≤ a ∧ a < r.base + r.size then some r.kind else regionAt rest a

/-- What `MEMMAP` holds at an address. -/
def State.regionOf (s : State) (a : Word) : Option RegionKind := regionAt s.cfg.memmap a.toNat

/-- The first address of the debug data words (20 R114). -/
def Config.dataBase (c : Config) : Word := 0xE0000000#32 + c.dataAddr.setWidth 32

/-- The address belongs to the core's own devices (20 R114): the PFIC and SysTick blocks, or a debug data word. These are
looked at before `MEMMAP`. -/
def isCoreDevice (c : Config) (a : Word) : Bool :=
  a.extractLsb' 13 19 == 0x70007#19 || decide ((a - Config.dataBase c).toNat < 8)

/-- A store wrote one of these addresses. -/
def Overwrite.touches (o : Overwrite) (as : List Nat) : Bool := o.any (fun e => as.contains e.1)

/-- How many recorded stores wrote one of these addresses. -/
def storesOver (st : List Overwrite) (as : List Nat) : Nat := (st.filter (fun o => Overwrite.touches o as)).length

/-- The recorded stores that wrote none of these addresses. -/
def storesElsewhere (st : List Overwrite) (as : List Nat) : List Overwrite := st.filter (fun o => !Overwrite.touches o as)

/-- Memory as an observer of these addresses sees it that misses the newest `n` of the recorded stores to them: each of
these is undone whole (20 R121, R126). -/
def Memory.rewind (m : List Host.Cell) : List Overwrite → List Nat → Nat → List Host.Cell
  | _, _, 0 => m
  | [], _, _ + 1 => m
  | o :: rest, as, n + 1 =>
    if Overwrite.touches o as then Memory.rewind (Memory.undo m o) rest as n else Memory.rewind m rest as (n + 1)

/-- The recorded stores that are still unseen once an observer of these addresses has missed only the newest `n` of those to
them: a store that it saw, and every older one to a byte of a store it saw, is seen from then on. -/
def leaveUnseen : List Overwrite → List Nat → Nat → List Overwrite
  | [], _, _ => []
  | o :: rest, as, 0 =>
    if Overwrite.touches o as then leaveUnseen rest (o.map Prod.fst ++ as) 0 else o :: leaveUnseen rest as 0
  | o :: rest, as, n + 1 =>
    if Overwrite.touches o as then o :: leaveUnseen rest as n else o :: leaveUnseen rest as (n + 1)

end Sys2Proof.Machine
end

