-- ==== Sys2Proof/Machine/Pmp.lean ====
section
/-! DEFINITION. Physical memory protection (20_memory.md R130 to R141). -/

namespace Sys2Proof.Machine

/-- The kind of access PMP checks (20 R136). -/
inductive AccessKind where
  | fetch
  | load
  | store
deriving DecidableEq, Repr

/-- The index of the lowest 0 bit of a word, 32 if there is none: `k` of 20 R132, `N` of 61 R634. -/
def lowestZero (w : Word) : Nat := ((List.range 32).find? (fun i => !w.getLsbD i)).getD 32

/-- `match(i, y)` of 20 R132: does region `i` contain byte address `y`? -/
def Pmp.contains (p : Pmp) (i : Fin 4) (y : Word) : Bool :=
  let a := p.addr[i].toNat % 2 ^ 30
  let lo := if h : i.val = 0 then 0 else (p.addr[i.val - 1]'(by omega)).toNat % 2 ^ 30
  match p.cfg[i].a with
  | .off => false
  | .tor => decide (lo ≤ y.toNat / 4) && decide (y.toNat / 4 < a)
  | .na4 => decide (y.toNat / 4 = a)
  | .napot =>
    let k := lowestZero p.addr[i]
    decide (29 ≤ k) || decide (y.toNat / 2 ^ (k + 3) = a / 2 ^ (k + 1))

/-- The region that decides a byte: the lowest-numbered match (20 R135). -/
def Pmp.region (p : Pmp) (y : Word) : Option (Fin 4) := (List.finRange 4).find? (fun i => p.contains i y)

/-- The permission bit for a kind of access. -/
def PmpCfg.permits (c : PmpCfg) : AccessKind → Bool
  | .fetch => c.x
  | .load => c.r
  | .store => c.w

/-- The check of one byte (20 R136). -/
def Pmp.allowsByte (p : Pmp) (priv : Priv) (k : AccessKind) (y : Word) : Bool :=
  match p.region y with
  | some i => (priv == .machine && !p.cfg[i].l) || p.cfg[i].permits k
  | none => priv == .machine

/-- The check of an access: every byte allowed, and all decided alike (20 R137). -/
def Pmp.allows (p : Pmp) (priv : Priv) (k : AccessKind) (ys : List Word) : Bool :=
  ys.all (fun y => p.allowsByte priv k y) && ys.all (fun y => p.region y == p.region (ys.headD 0#32))

/-- PMP lets the access through: V3A has no PMP (20 R130), and no rule names debug mode (61 R627, log 39). -/
def State.pmpOk (s : State) (k : AccessKind) (ys : List Word) : Bool :=
  s.cfg.variant.isV3A || s.debugMode || s.pmp.allows s.priv k ys

/-- A write of `pmpaddr<i>` is ignored (20 R139): the region is locked, or the next one is locked in TOR mode. -/
def Pmp.addrLocked (p : Pmp) (i : Fin 4) : Bool :=
  p.cfg[i].l || (if h : i.val < 3 then (p.cfg[i.val + 1]'(by omega)).l && (p.cfg[i.val + 1]'(by omega)).a == .tor else false)

end Sys2Proof.Machine
end

