-- ==== Sys2Proof/Machine/Pfic.lean ====
section
/-! DEFINITION. The interrupt controller's rules: enables, pending bits, priorities, nesting, selection, the VTF channels
(60_exceptions.md R527 to R565). Its registers are read and written in Machine/Device.lean. -/

namespace Sys2Proof.Machine

/-- The member is V3A. -/
def State.isV3A (s : State) : Bool := s.cfg.variant.isV3A

/-- The programmable numbers 12, 14, 16 to 255, one bit each (60 R503). -/
def programmableMask : BitVec 256 := ~~~0xAFFF#256

/-- Number `n` is programmable (60 R503). -/
def isProgrammable (n : IrqNum) : Bool := n == 12#8 || n == 14#8 || decide (16 ≤ n.toNat)

/-- The numbers whose enable bit is fixed 1 (60 R541, R557): 2 and 3, on V3B/C also 5, 8, 9. -/
def State.fixedEnables (s : State) : BitVec 256 := if s.isV3A then 0x00C#256 else 0x32C#256

/-- `en` as the registers show it (60 R542). -/
def State.enables (s : State) : BitVec 256 := s.pfic.en ||| s.fixedEnables

/-- The numbers whose pending bit software and sources can set (60 R552, R557): the programmable ones, NMI and EXC. -/
def pendableMask : BitVec 256 := programmableMask ||| 0xC#256

/-- Bit `n` of a bank. -/
def irqBit (n : IrqNum) : BitVec 256 := 1#256 <<< n.toNat

/-- `pend[n]`. -/
def State.pending (s : State) (n : IrqNum) : Bool := s.pfic.pend.getLsbD n.toNat

/-- `en[n]`. -/
def State.enabled (s : State) (n : IrqNum) : Bool := s.enables.getLsbD n.toNat

/-- Pend the numbers of a mask. A number that becomes pending while disabled is an event when SEVONPEND is set (61 R614). -/
def State.setPending (s : State) (mask : BitVec 256) : State :=
  let rising := mask &&& pendableMask &&& ~~~s.pfic.pend
  { s with
    pfic := { s.pfic with pend := s.pfic.pend ||| rising }
    eventPending := s.eventPending || (s.pfic.sevonpend && rising &&& ~~~s.enables != 0#256) }

/-- Clear the pending bits of a mask. -/
def State.clearPending (s : State) (mask : BitVec 256) : State :=
  { s with pfic := { s.pfic with pend := s.pfic.pend &&& ~~~mask } }

/-- The sources that assert their request as a level, pended again (61 R606, R607): SysTick while STIE and CNTIF, the
software interrupt while SWIE; V3B/C only. The bit is set and kept: when CNTIF, STIE or SWIE is cleared it stays until
PFIC_IPRR, an entry or a reset clears it, since 61 R606 and 70 R671 say what holds while the source asserts and not what follows
(DEDUCED, log 44). -/
def State.assertSources (s : State) : State :=
  if s.isV3A then s
  else
    s.setPending
      ((if s.stk.stie && s.stk.cntif then irqBit 12#8 else 0#256) ||| (if s.stk.swie then irqBit 14#8 else 0#256))

/-- The nesting level, 0 to 3 (10 R31). -/
def State.level (s : State) : Nat := s.nest.length

/-- `act[n]` (60 R554): the number is that of an active trap. -/
def State.active (s : State) (n : IrqNum) : Bool := s.nest.any (fun e => e.actidx == n)

/-- `NestingOn()` (60 R561). -/
def State.nestingOn (s : State) : Bool :=
  if s.isV3A then !s.pfic.nestCtrl else s.csr.intsyscr.inesten && s.csr.inestcr.nestLvl

/-- `PBits()` (60 R561): how many top bits of a priority preempt. -/
def State.preemptBits (s : State) : Nat :=
  if s.nestingOn then
    if s.isV3A then 1
    else if s.cfg.fromV1 then s.csr.intsyscr.pmtcfg.toNat
    else 3
  else 0

/-- The priority byte of a number (60 R555). -/
def State.prioOf (s : State) (n : IrqNum) : Byte := s.pfic.prio[n.toNat]'(by have := n.isLt; omega)

/-- `Pre(n)` (60 R561): the preemption part of the priority; 0 when no bit preempts. -/
def State.preemption (s : State) (n : IrqNum) : Nat := (s.prioOf n).toNat / 2 ^ (8 - s.preemptBits)

/-- `LastLevel()` (60 R523). -/
def State.lastLevel (s : State) : Nat := if s.nestingOn then 2 else 1

/-- `HpeEnabled()` (60 R531). -/
def State.hpeEnabled (s : State) : Bool :=
  if s.isV3A then !s.pfic.hwstkCtrl else s.csr.intsyscr.hwstken && !s.csr.intsyscr.gihwstknen

/-- `GlobalGate()` (60 R529). -/
def State.globalGate (s : State) : Bool := s.csr.mstatus.mie && (s.isV3A || !s.csr.intsyscr.gihwstknen)

/-- The threshold lets a programmable interrupt through (60 R544). -/
def State.aboveThreshold (s : State) (n : IrqNum) : Bool :=
  s.pfic.threshold == 0#8 || decide ((s.prioOf n).toNat < s.pfic.threshold.toNat)

/-- Number `n` may preempt what runs (60 R527 item 3, R562): nothing runs, or nesting allows it and the innermost active
trap is programmable with a larger preemption priority. -/
def State.mayPreempt (s : State) (n : IrqNum) : Bool :=
  match s.nest with
  | [] => true
  | e :: _ =>
    s.nestingOn && decide (s.level < 2) && isProgrammable e.actidx && decide (s.preemption n < s.preemption e.actidx)

/-- Number `n` belongs to the set `C` of 60 R563. -/
def State.candidate (s : State) (n : IrqNum) : Bool :=
  isProgrammable n && s.pending n && s.enabled n && s.aboveThreshold n && !s.active n && s.mayPreempt n

/-- The better of a choice so far and number `n`: smaller priority, then smaller number; numbers are taken in rising order. -/
def State.betterIrq (s : State) (best : Option IrqNum) (n : IrqNum) : Option IrqNum :=
  if s.candidate n then
    match best with
    | none => some n
    | some m => if (s.prioOf n).toNat < (s.prioOf m).toNat then some n else some m
  else best

/-- The member of `C` with the least (priority, number), if any programmable number is pending at all. -/
def State.bestCandidate (s : State) : Option IrqNum :=
  if s.pfic.pend &&& programmableMask = 0#256 then none
  else (List.range 256).foldl (fun best n => s.betterIrq best (BitVec.ofNat 8 n)) none

/-- `SelectInterrupt()` (60 R563). -/
def State.selectInterrupt (s : State) : Option IrqNum :=
  if s.pending 2#8 && !s.active 2#8 && decide (s.level ≤ 2) then some 2#8
  else if !s.globalGate || s.debugMode then none
  else s.bestCandidate

/-- A pending, enabled number that can wake the core whatever MIE is (61 R611, R612). -/
def State.wakeInterrupt (s : State) : Bool :=
  if s.pfic.pend &&& s.enables = 0#256 then false
  else
    s.pending 2#8 ||
      (List.range 256).any (fun k =>
        let n : IrqNum := BitVec.ofNat 8 k
        isProgrammable n && s.pending n && s.enabled n && s.aboveThreshold n)

/-- The interrupt number of VTF channel `i` (60 R545, R548, R549). -/
def State.vtfNumber (s : State) (i : Fin 4) : IrqNum :=
  if s.isV3A then s.pfic.vtfAddr[i].extractLsb' 24 8 else s.pfic.vtfId[i]

/-- Channel `i` is on (60 R560): the enable bit on V3B/C, `V3A_VTF_CHANNEL_ON` on V3A. -/
def State.vtfOn (s : State) (i : Fin 4) : Bool :=
  if s.isV3A then
    match s.cfg.vtfRule with
    | .programmable => isProgrammable (s.vtfNumber i)
    | .numbers on => on.contains (s.vtfNumber i)
  else s.pfic.vtfAddr[i].getLsbD 0

/-- The target of channel `i` (60 R560). -/
def State.vtfTarget (s : State) (i : Fin 4) : Word :=
  if s.isV3A then fieldAt 32 s.pfic.vtfBase 28 ||| (s.pfic.vtfAddr[i] &&& 0x00FFFFFF#32)
  else s.pfic.vtfAddr[i] &&& 0xFFFFFFFE#32

/-- The channels that match a number (60 R560). -/
def State.vtfMatches (s : State) (n : IrqNum) : List (Fin 4) :=
  (List.finRange 4).filter (fun i => s.vtfOn i && s.vtfNumber i == n)

/-- A SysTick tick (61 R605): nothing while STE is 0, or in debug mode with stoptime set. -/
def State.tick (s : State) : State :=
  if !s.stk.ste || (s.debugMode && s.dbg.dcsr.stoptime) then s
  else if s.isV3A then
    let next : BitVec 64 := (fieldAt 64 s.stk.cntHi 32 ||| fieldAt 64 s.stk.cnt 0) + 1#64
    let lo : Word := next.extractLsb' 0 32
    let hi : Word := next.extractLsb' 32 32
    let s1 := { s with stk := { s.stk with cnt := lo, cntHi := hi } }
    if lo = s.stk.cmp ∧ hi = s.stk.cmpHi then s1.setPending (irqBit 12#8) else s1
  else if s.stk.mode then
    let next := if s.stk.stre && s.stk.cnt == 0#32 then s.stk.cmp else s.stk.cnt - 1#32
    State.assertSources { s with stk := { s.stk with cnt := next, cntif := s.stk.cntif || next == 0#32 } }
  else
    let next := if s.stk.stre && s.stk.cnt == s.stk.cmp then 0#32 else s.stk.cnt + 1#32
    State.assertSources { s with stk := { s.stk with cnt := next, cntif := s.stk.cntif || next == s.stk.cmp } }

end Sys2Proof.Machine
end

