-- ==== Sys2Proof/Machine/Device.lean ====
section
/-! DEFINITION. The core's memory-mapped registers (20_memory.md R112 to R114): which register an address names on a member,
what a read returns, at which widths it may be accessed, and what a write does when it takes effect. -/

namespace Sys2Proof.Machine

/-- A device register of the core (20 R114). A bank index counts its 32-bit registers. -/
inductive DevReg where
  | isr (x : BitVec 3)
  | ipr (x : BitVec 3)
  | ithresdr
  | vtfbaddrr
  | cfgr
  | gisr
  | vtfidr
  | vtfaddrr (i : BitVec 2)
  | ienr (x : BitVec 3)
  | irer (x : BitVec 3)
  | ipsr (x : BitVec 3)
  | iprr (x : BitVec 3)
  | iactr (x : BitVec 3)
  /-- `PFIC_IPRIOR<4k>` to `PFIC_IPRIOR<4k+3>` -/
  | iprior (k : BitVec 6)
  | sctlr
  | stkCtlr
  | stkSr
  | stkCntl
  | stkCnth
  | stkCmplr
  | stkCmphr
  | data0
  | data1
deriving DecidableEq, Repr

/-- The third 32-byte block of the PFIC, `0xE000E040` (20 R114). -/
def devRegBlock40 (v3a : Bool) (x : BitVec 3) : Option DevReg :=
  match x with
  | 0#3 => some .ithresdr
  | 1#3 => if v3a then some .vtfbaddrr else none
  | 2#3 => if v3a then some .cfgr else none
  | 3#3 => some .gisr
  | 4#3 => if v3a then none else some .vtfidr
  | _ => none

/-- The SysTick block, `0xE000F000`, whose layout differs by member (61 R600). -/
def devRegStk (v3a : Bool) (x : BitVec 3) : Option DevReg :=
  match x with
  | 0#3 => some .stkCtlr
  | 1#3 => if v3a then some .stkCntl else some .stkSr
  | 2#3 => if v3a then some .stkCnth else some .stkCntl
  | 3#3 => if v3a then some .stkCmplr else none
  | 4#3 => if v3a then some .stkCmphr else some .stkCmplr
  | _ => none

/-- The register a word address names on the member (20 R114); none where no table of the member names it. -/
def devRegAt (c : Config) (a : Word) : Option DevReg :=
  let x := a.extractLsb' 2 3
  let block := a &&& 0xFFFFFFE0#32
  if a - Config.dataBase c = 0#32 then some .data0
  else if a - Config.dataBase c = 4#32 then some .data1
  else if block = 0xE000E000#32 then some (.isr x)
  else if block = 0xE000E020#32 then some (.ipr x)
  else if block = 0xE000E040#32 then devRegBlock40 c.variant.isV3A x
  else if block = 0xE000E060#32 then (if x.getLsbD 2 then none else some (.vtfaddrr (x.extractLsb' 0 2)))
  else if block = 0xE000E100#32 then some (.ienr x)
  else if block = 0xE000E180#32 then some (.irer x)
  else if block = 0xE000E200#32 then some (.ipsr x)
  else if block = 0xE000E280#32 then some (.iprr x)
  else if block = 0xE000E300#32 then some (.iactr x)
  else if a &&& 0xFFFFFF00#32 = 0xE000E400#32 then some (.iprior (a.extractLsb' 2 6))
  else if a = 0xE000ED10#32 then some .sctlr
  else if block = 0xE000F000#32 then devRegStk c.variant.isV3A x
  else none

/-- The word-aligned address an access falls into. -/
def wordAddr (a : Word) : Word := a &&& 0xFFFFFFFC#32

/-- The position of the addressed byte in its word. -/
def lane (a : Word) : Nat := (a.extractLsb' 0 2).toNat

/-- A SysTick counter or compare register (20 R112 item 2). -/
def DevReg.isCounter : DevReg → Bool
  | .stkCntl | .stkCnth | .stkCmplr | .stkCmphr => true
  | _ => false

/-- The widths at which a register may be read (20 R112, 61 R609). -/
def DevReg.readWidth (r : DevReg) (w : Width) : Bool :=
  match w with
  | .word => true
  | .half => r.isCounter
  | .byte => r.isCounter || (match r with | .iprior _ => true | _ => false)

/-- The widths at which a register may be written (20 R112, 61 R609, 92 D33): V3A writes its counters by bytes only. -/
def DevReg.writeWidth (v3a : Bool) (r : DevReg) (w : Width) : Bool :=
  match w with
  | .word => !(v3a && r.isCounter)
  | .half => !v3a && r.isCounter
  | .byte => r.isCounter || (match r with | .iprior _ => true | _ => false)

/-- Register `x` of a 256-bit bank (60 R540). -/
def bankWord (v : BitVec 256) (x : BitVec 3) : Word := v.extractLsb' (32 * x.toNat) 32

/-- A word placed at register `x` of a 256-bit bank. -/
def bankMask (v : Word) (x : BitVec 3) : BitVec 256 := v.setWidth 256 <<< (32 * x.toNat)

/-- The active bits, one for each number (60 R554). -/
def State.actives (s : State) : BitVec 256 := s.nest.foldl (fun acc e => acc ||| irqBit e.actidx) 0#256

/-- One bit at a place in a word. -/
def flagAt (b : Bool) (n : Nat) : Word := if b then 1#32 <<< n else 0#32

/-- NESTSTA of PFIC_GISR and NEST_STA of inestcr: `2^level - 1` (60 R547, 10 R63). -/
def nestStatus (level : Nat) : Word := BitVec.ofNat 32 (2 ^ level - 1)

/-- PFIC_GISR (60 R547). In the overflow state NESTSTA and LOCKSTA are free (60 R537, 10 R37). -/
def State.readGisr (s : State) : Word :=
  let upper :=
    if s.isV3A then 0#32
    else
      (if s.level = 3 then flagAt (Config.freeBool s.draws) 13 else 0#32) ||| flagAt s.debugMode 12 |||
        flagAt s.csr.mstatus.mie 11
  let nesting := if s.level = 3 then Config.freeWord s.draws &&& 0xFF#32 else nestStatus s.level
  upper ||| flagAt (s.pfic.pend != 0#256) 9 ||| flagAt (decide (0 < s.level)) 8 ||| nesting

/-- Four priority bytes as a word (20 R112). -/
def State.readIprior (s : State) (k : BitVec 6) : Word :=
  assemble [s.prioOf (fieldAt 8 k 2), s.prioOf (fieldAt 8 k 2 ||| 1#8), s.prioOf (fieldAt 8 k 2 ||| 2#8),
    s.prioOf (fieldAt 8 k 2 ||| 3#8)]

/-- The value of a register as a word. A write-only register reads a free value (60 R558, 92 D54). -/
def State.devWord (s : State) : DevReg → Word
  | .isr x => bankWord s.enables x
  | .ipr x => bankWord s.pfic.pend x
  | .ithresdr => s.pfic.threshold.setWidth 32
  | .vtfbaddrr => fieldAt 32 s.pfic.vtfBase 28
  | .cfgr => flagAt s.pfic.nestCtrl 1 ||| flagAt s.pfic.hwstkCtrl 0
  | .gisr => s.readGisr
  | .vtfidr => assemble [s.pfic.vtfId[0], s.pfic.vtfId[1], s.pfic.vtfId[2], s.pfic.vtfId[3]]
  | .vtfaddrr i => s.pfic.vtfAddr[i.toNat]'(by have := i.isLt; omega)
  | .ienr _ => Config.freeWord s.draws
  | .irer _ => Config.freeWord s.draws
  | .ipsr _ => Config.freeWord s.draws
  | .iprr _ => Config.freeWord s.draws
  | .iactr x => bankWord s.actives x
  | .iprior k => s.readIprior k
  | .sctlr =>
    flagAt s.pfic.sevonpend 4 ||| flagAt s.pfic.wfitowfe 3 ||| flagAt s.pfic.sleepdeep 2 ||| flagAt s.pfic.sleeponexit 1
  | .stkCtlr =>
    if s.isV3A then flagAt s.stk.ste 0
    else
      flagAt s.stk.mode 4 ||| flagAt s.stk.stre 3 ||| flagAt s.stk.stclk 2 ||| flagAt s.stk.stie 1 ||| flagAt s.stk.ste 0
  | .stkSr => flagAt s.stk.swie 31 ||| flagAt s.stk.cntif 0
  | .stkCntl => s.stk.cnt
  | .stkCnth => s.stk.cntHi
  | .stkCmplr => s.stk.cmp
  | .stkCmphr => s.stk.cmpHi
  | .data0 => s.dm.data0
  | .data1 => s.dm.data1

/-- Reading the register takes a free value: a write-only register, or PFIC_GISR in the overflow state. -/
def State.devReadDraws (s : State) : DevReg → Bool
  | .ienr _ | .irer _ | .ipsr _ | .iprr _ => true
  | .gisr => decide (s.level = 3)
  | _ => false

/-- The bytes of a value that a width selects, zero-extended. -/
def Width.cut (w : Width) (v : Word) : Word :=
  match w with
  | .byte => v &&& 0xFF#32
  | .half => v &&& 0xFFFF#32
  | .word => v

/-- `old` with the bytes of a narrower write replaced. -/
def mergeLanes (old : Word) (w : Width) (ln : Nat) (v : Word) : Word :=
  let mask : Word :=
    match w with
    | .byte => 0xFF#32
    | .half => 0xFFFF#32
    | .word => 0xFFFFFFFF#32
  (old &&& ~~~(mask <<< (8 * ln))) ||| (w.cut v <<< (8 * ln))

/-- The implemented bits of a priority byte and of the threshold (60 R544, R555). -/
def State.prioMask (s : State) : Byte := if s.isV3A then 0xF0#8 else 0xE0#8

/-- Write one priority byte (60 R555). -/
def State.setPrio (s : State) (n : IrqNum) (b : Byte) : State :=
  { s with pfic := { s.pfic with prio := s.pfic.prio.set n.toNat (b &&& s.prioMask) (by have := n.isLt; omega) } }

/-- Write PFIC_CFGR (60 R546): the bits of the key in the upper half. 92 D9 calls bits 4 to 1 reserved on V3A, where R546,
R561 and 70 R660 give them functions: the functions are modelled (DESIGN CHOICE, log 41). -/
def State.writeCfgr (s : State) (v : Word) : State :=
  let k := v.extractLsb' 16 16
  let s1 :=
    if k = 0xFA05#16 then { s with pfic := { s.pfic with nestCtrl := v.getLsbD 1, hwstkCtrl := v.getLsbD 0 } }
    else if k = 0xBCAF#16 then
      let cleared :=
        s.clearPending ((if v.getLsbD 5 then irqBit 3#8 else 0#256) ||| (if v.getLsbD 3 then irqBit 2#8 else 0#256))
      cleared.setPending ((if v.getLsbD 4 then irqBit 3#8 else 0#256) ||| (if v.getLsbD 2 then irqBit 2#8 else 0#256))
    else s
  if v.getLsbD 6 then { s1 with pfic := Pfic.reset } else s1

/-- Write PFIC_SCTLR (60 R556), less SYSRESET, which ends the store at once (70 R651). -/
def State.writeSctlr (s : State) (v : Word) : State :=
  { s with
    pfic :=
      { s.pfic with
        sevonpend := v.getLsbD 4
        wfitowfe := v.getLsbD 3
        sleepdeep := v.getLsbD 2
        sleeponexit := v.getLsbD 1 }
    eventPending := s.eventPending || v.getLsbD 5 }

/-- Write STK_CTLR (61 R601): on V3A only STE is implemented. -/
def State.writeStkCtlr (s : State) (v : Word) : State :=
  if s.isV3A then { s with stk := { s.stk with ste := v.getLsbD 0 } }
  else
    { s with
      stk :=
        { s.stk with
          mode := v.getLsbD 4
          stre := v.getLsbD 3
          stclk := v.getLsbD 2
          stie := v.getLsbD 1
          ste := v.getLsbD 0 } }

/-- Write a VTF address register: V3A drops bits 23 to 20 (60 R549). -/
def State.writeVtfAddr (s : State) (i : BitVec 2) (v : Word) : State :=
  let kept := if s.isV3A then v &&& 0xFF0FFFFF#32 else v
  { s with pfic := { s.pfic with vtfAddr := s.pfic.vtfAddr.set i.toNat kept (by have := i.isLt; omega) } }

/-- Write one or four priority bytes (20 R112). -/
def State.writeIprior (s : State) (k : BitVec 6) (w : Width) (ln : Nat) (v : Word) : State :=
  let n := fieldAt 8 k 2
  match w with
  | .byte => s.setPrio (n ||| BitVec.ofNat 8 ln) (v.extractLsb' 0 8)
  | _ =>
    (((s.setPrio n (v.extractLsb' 0 8)).setPrio (n ||| 1#8) (v.extractLsb' 8 8)).setPrio (n ||| 2#8)
      (v.extractLsb' 16 8)).setPrio (n ||| 3#8) (v.extractLsb' 24 8)

/-- The effect of a device write on its register (60 R542 to R556, 61 R601 to R604). Read-only registers ignore it. -/
def State.devEffect (s : State) (r : DevReg) (w : Width) (ln : Nat) (v : Word) : State :=
  match r with
  | .isr _ | .ipr _ | .gisr | .iactr _ => s
  | .ithresdr => { s with pfic := { s.pfic with threshold := v.extractLsb' 0 8 &&& s.prioMask } }
  | .vtfbaddrr => { s with pfic := { s.pfic with vtfBase := v.extractLsb' 28 4 } }
  | .cfgr => s.writeCfgr v
  | .vtfidr =>
    { s with
      pfic :=
        { s.pfic with vtfId := #v[v.extractLsb' 0 8, v.extractLsb' 8 8, v.extractLsb' 16 8, v.extractLsb' 24 8] } }
  | .vtfaddrr i => s.writeVtfAddr i v
  | .ienr x => { s with pfic := { s.pfic with en := s.pfic.en ||| (bankMask v x &&& programmableMask) } }
  | .irer x => { s with pfic := { s.pfic with en := s.pfic.en &&& ~~~(bankMask v x) } }
  | .ipsr x => s.setPending (bankMask v x)
  | .iprr x => (s.clearPending (bankMask v x)).assertSources
  | .iprior k => s.writeIprior k w ln v
  | .sctlr => s.writeSctlr v
  | .stkCtlr => (s.writeStkCtlr v).assertSources
  | .stkSr =>
    State.assertSources { s with stk := { s.stk with swie := v.getLsbD 31, cntif := s.stk.cntif && v.getLsbD 0 } }
  | .stkCntl => { s with stk := { s.stk with cnt := mergeLanes s.stk.cnt w ln v } }
  | .stkCnth => { s with stk := { s.stk with cntHi := mergeLanes s.stk.cntHi w ln v } }
  | .stkCmplr => { s with stk := { s.stk with cmp := mergeLanes s.stk.cmp w ln v } }
  | .stkCmphr => { s with stk := { s.stk with cmpHi := mergeLanes s.stk.cmpHi w ln v } }
  | .data0 => { s with dm := { s.dm with data0 := v } }
  | .data1 => { s with dm := { s.dm with data1 := v } }

/-- A queued device write takes effect (20 R122). -/
def State.applyDev (s : State) (d : DevWrite) : State :=
  match devRegAt s.cfg (wordAddr d.addr) with
  | none => s
  | some r => s.devEffect r d.width (lane d.addr) d.value

/-- The oldest outstanding device write takes effect. -/
def State.drainOne (s : State) : State :=
  match s.deviceQueue with
  | [] => s
  | d :: rest => State.applyDev { s with deviceQueue := rest } d

/-- Every outstanding device write takes effect, oldest first: at `fence`, `mret`, `wfi`, trap entry, and before a device
load, which is performed in program order with them (20 R122, R124). -/
def State.drainAll (s : State) : State := s.deviceQueue.foldl State.applyDev { s with deviceQueue := [] }

/-- The keys of PFIC_CFGR (60 R546). -/
def isCfgrKey (k : BitVec 16) : Bool := k == 0xFA05#16 || k == 0xBCAF#16 || k == 0xBEEF#16

/-- Why a write of PFIC_CFGR is refused, if it is: set and clear of one pending bit, or the set of EXC's (60 R546, R557);
PFICRESET without a key or from inside a handler (70 R653). A system reset comes first in R546's order, so SYSRESET with its
key resets whatever bit 6 asks (DESIGN CHOICE, log 41). -/
def State.cfgrRefusal (s : State) (v : Word) : Option Refusal :=
  let k := v.extractLsb' 16 16
  if k = 0xBCAF#16 ∧ ((v.getLsbD 5 ∧ v.getLsbD 4) ∨ (v.getLsbD 3 ∧ v.getLsbD 2)) then some .cfgrConflict
  else if k = 0xBCAF#16 ∧ v.getLsbD 4 then some .softwarePendedExc
  else if k = 0xBEEF#16 ∧ v.getLsbD 7 then none
  else if v.getLsbD 6 ∧ (isCfgrKey k = false ∨ s.nest ≠ []) then some .pficReset
  else none

/-- Why a write of a device register is refused, if it is: by PFIC_CFGR's rules, or because PFIC_IPSR0 bit 3 would pend EXC
(60 R557 item 4, 92 D50). -/
def State.writeRefusal (s : State) (r : DevReg) (v : Word) : Option Refusal :=
  match r with
  | .cfgr => s.cfgrRefusal v
  | .ipsr x => if x = 0#3 ∧ v.getLsbD 3 then some .softwarePendedExc else none
  | _ => none

/-- The write asks for a system reset (70 R651). -/
def DevReg.resets (v3a : Bool) (r : DevReg) (w : Width) (v : Word) : Bool :=
  match r with
  | .cfgr => w == .word && v.extractLsb' 16 16 == 0xBEEF#16 && v.getLsbD 7
  | .sctlr => !v3a && v.getLsbD 31
  | _ => false

/-- The machine after a system reset (70 R650, R651): as after power-on, but the debug module keeps its registers, ROM keeps
its contents, and the parameters, the inputs to come and the draw counter are the model's own. A device write that is still
outstanding never takes effect (DESIGN CHOICE, log 53). A program buffer that ran has ended and its command with it, `cmderr` as it
was: 70 R651 does not say what becomes of `busy` (DESIGN CHOICE, log 55). -/
def State.systemReset (s : State) : State :=
  { State.reset with
    cfg := s.cfg
    pc := s.cfg.resetPc
    mem := s.mem.filter (fun c => regionAt s.cfg.memmap c.1 == some .rom)
    dm := { s.dm with havereset := true, running := false }
    env := s.env
    draws := s.draws }

/-- A power-on reset (70 R650): the debug module too, so `havereset` reads 0 after it (DESIGN CHOICE, log 49). -/
def State.powerOnReset (s : State) : State := { s.systemReset with dm := DebugModule.reset }

end Sys2Proof.Machine
end

