-- ==== Sys2Proof/Machine/Ops.lean ====
section
/-! DEFINITION. The shared operations: registers, free values, the load and store primitives (20_memory.md R104, R105), taking
a trap and returning from one (60_exceptions.md R520 to R537), entering debug mode (61 R631). -/

namespace Sys2Proof.Machine

/-- The three outcomes of a step of this machine. -/
abbrev Out := Host.Outcome State Fault Refusal

/-! ## Registers and pc -/

/-- `x[i]`: x0 reads 0 (10 R21). -/
def State.reg (s : State) (i : Reg) : Word := if i = 0#5 then 0#32 else s.regs[i.toNat]'(by have := i.isLt; omega)

/-- `x[i] <- v`: a write of x0 is discarded (10 R21). -/
def State.setReg (s : State) (i : Reg) (v : Word) : State :=
  if i = 0#5 then s else { s with regs := s.regs.set i.toNat v (by have := i.isLt; omega) }

/-- `pc <- v`. -/
def State.setPc (s : State) (v : Word) : State := { s with pc := v }

/-- `pc <- pc + ilen`, modulo 2^32 (10 R26). -/
def State.advance (s : State) (ilen : Word) : State := { s with pc := s.pc + ilen }

/-- A free value has been taken (log 19). -/
def State.drawn (s : State) : State := { s with draws := s.draws + 1 }

/-- A free choice between two values. -/
def State.pick {α : Type} (s : State) (a b : α) : α := if Config.freeBool s.draws then a else b

/-- A PMP write has settled: the next fetch may rely on it (20 R140). So it is once another instruction is fetched, and when
other code takes over, by a trap or in debug mode (log 26). -/
def State.pmpSettled (s : State) : State := { s with pmpBefore := none }

/-! ## Debug mode entry (61 R631) -/

/-- Enter debug mode: `dpc`, `dcsr.cause` and `dcsr.prv` are written, the mode acts as machine mode, no sleep goes on. -/
def State.enterDebug (s : State) (cause : BitVec 3) (dpc : Word) : State :=
  { s with
    debugMode := true
    sleep := none
    priv := .machine
    dbg := { s.dbg with dpc := dpc, dcsr := { s.dbg.dcsr with cause := cause, prv := s.priv } }
    pmpBefore := none }

/-- The core leaves reset (70 R652): with a halt request it enters debug mode before any instruction, cause 101. -/
def State.leaveReset (s : State) : State := if s.dm.haltreq then s.enterDebug 5#3 s.pc else s

/-! ## What stops an instruction -/

/-- The exceptions of 60 R501. -/
inductive Exc where
  | instrAccess
  | illegal
  | breakpoint
  | loadMisaligned
  | loadAccess
  | storeMisaligned
  | storeAccess
  | ecallU
  | ecallM
deriving DecidableEq, Repr

/-- The code of an exception in `mcause` (60 R501). -/
def Exc.code : Exc → Word
  | .instrAccess => 1#32
  | .illegal => 2#32
  | .breakpoint => 3#32
  | .loadMisaligned => 4#32
  | .loadAccess => 5#32
  | .storeMisaligned => 6#32
  | .storeAccess => 7#32
  | .ecallU => 8#32
  | .ecallM => 11#32

/-- The vector number of an exception (60 R503). -/
def Exc.vector (v3a : Bool) (e : Exc) : IrqNum :=
  if v3a then 3#8
  else
    match e with
    | .ecallM => 5#8
    | .ecallU => 8#8
    | .breakpoint => 9#8
    | _ => 3#8

/-- Why an access did not complete: an exception with its `mtval`, a fault, a refusal, or a system reset, which ends the
instruction in a next state of its own (70 R651). -/
inductive Stop where
  | exn (e : Exc) (info : Word)
  | fault (f : Fault)
  | refused (r : Refusal)
  | restart (s : State)

/-- The same stop, its exception at the address `a`: a misaligned access faults with the instruction's effective address
(20 R106). -/
def Stop.inAccess (a : Word) : Stop → Stop
  | .exn e _ => .exn e a
  | stop => stop

/-! ## Data accesses -/

/-- What answers at the addresses of an access: the core's own devices, a kind of region if all agree that there is one, or
nothing (20 R104 step 3). -/
inductive Target where
  | device
  | platform
  | rom
  | ram
  | nothing
deriving DecidableEq, Repr

/-- The target of one address. -/
def State.targetAt (s : State) (a : Word) : Target :=
  if isCoreDevice s.cfg a then .device
  else
    match s.regionOf a with
    | none => .nothing
    | some .ram => .ram
    | some .rom => .rom
    | some .device => .platform

/-- The target of an aligned access: that of its bytes if they agree; nothing if some byte is nowhere or they disagree. -/
def State.target (s : State) (as : List Word) : Target :=
  match as with
  | [] => .nothing
  | a :: rest => if rest.all (fun b => s.targetAt b == s.targetAt a) then s.targetAt a else .nothing

/-- Read a device register (20 R104 step 4, R112): earlier device writes take effect first (20 R124). -/
def State.devLoad (s : State) (a : Word) (w : Width) : Except Stop (Word × State) :=
  match devRegAt s.cfg (wordAddr a) with
  | none => .error (.refused (.deviceUnnamed a))
  | some r =>
    if r.readWidth w then
      let s1 := s.drainAll
      .ok (w.cut (s1.devWord r >>> (8 * lane a)), if s1.devReadDraws r then s1.drawn else s1)
    else .error (.refused (.deviceWidth a))

/-- A read that is aligned, or one byte of a split one: steps 2 to 4 of 20 R104. -/
def State.loadAligned (s : State) (a : Word) (w : Width) : Except Stop (Word × State) :=
  if !s.pmpOk .load (w.addrs a) then .error (.exn .loadAccess a)
  else
    match s.target (w.addrs a) with
    | .device => s.devLoad a w
    | .platform => .error (.refused (.platformDevice a))
    | .nothing => .error (.exn .loadAccess a)
    | .rom | .ram =>
      match s.bytesAt (w.addrs a) with
      | .ok bs => .ok (assemble bs, s)
      | .error e => .error (.fault (.unwrittenMemory e))

/-- The bytes of a split access, one read each (20 R104 step 1). -/
def State.loadBytes (s : State) : List Word → Except Stop (List Byte × State)
  | [] => .ok ([], s)
  | a :: as =>
    match s.loadAligned a .byte with
    | .error e => .error e
    | .ok (v, s1) =>
      match s1.loadBytes as with
      | .error e => .error e
      | .ok (bs, s2) => .ok (v.extractLsb' 0 8 :: bs, s2)

/-- `MemRead` (20 R104), the value zero-extended. -/
def State.load (s : State) (a : Word) (w : Width) : Except Stop (Word × State) :=
  if w.aligned a then s.loadAligned a w
  else
    match s.cfg.misaligned with
    | .refuse => .error (.refused (.misalignedAccess a))
    | .trap => .error (.exn .loadMisaligned a)
    | .split =>
      match s.loadBytes (w.addrs a) with
      | .error e => .error (e.inAccess a)
      | .ok (bs, s1) => .ok (assemble bs, s1)

/-- Two addresses lie in one block of `RESERVATION_GRANULE` bytes (43 R312). -/
def State.sameGranule (s : State) (a b : Word) : Bool :=
  decide (a.toNat / 2 ^ s.cfg.granuleLog = b.toNat / 2 ^ s.cfg.granuleLog)

/-- A store by the hart to the reserved block may clear the reservation (43 R312): a free choice. A store of the program
buffer is the hart's own (DEDUCED, log 33). -/
def State.storeClears (s : State) (a : Word) : State :=
  match s.reservation with
  | none => s
  | some r =>
    if s.sameGranule r a then
      State.drawn { s with reservation := if Config.freeBool s.draws then none else some r }
    else s

/-- Issue a write to a device register (20 R112, R122): checked now, its effect comes later; a reset request acts at once. -/
def State.devStore (s : State) (a : Word) (w : Width) (v : Word) : Except Stop State :=
  match devRegAt s.cfg (wordAddr a) with
  | none => .error (.refused (.deviceUnnamed a))
  | some r =>
    if r.writeWidth s.isV3A w then
      match s.writeRefusal r v with
      | some e => .error (.refused e)
      | none =>
        if r.resets s.isV3A w v then .error (.restart s.drainAll.systemReset.leaveReset)
        else .ok { s with deviceQueue := s.deviceQueue ++ [⟨a, w, w.cut v⟩] }
    else .error (.refused (.deviceWidth a))

/-- A write that is aligned, or one byte of a split one: 20 R105. ROM is no place a store can land: a store access fault
(DEDUCED, log 50). -/
def State.storeAligned (s : State) (a : Word) (w : Width) (v : Word) : Except Stop State :=
  if !s.pmpOk .store (w.addrs a) then .error (.exn .storeAccess a)
  else
    match s.target (w.addrs a) with
    | .device => s.devStore a w v
    | .platform => .error (.refused (.platformDevice a))
    | .nothing | .rom => .error (.exn .storeAccess a)
    | .ram => .ok ((s.storeClears a).setBytes (w.addrs a) (w.bytes v))

/-- The bytes of a split store. -/
def State.storeBytes (s : State) : List Word → List Byte → Except Stop State
  | a :: as, b :: bs =>
    match s.storeAligned a .byte (b.setWidth 32) with
    | .error e => .error e
    | .ok s1 => s1.storeBytes as bs
  | _, _ => .ok s

/-- `MemWrite` (20 R105): the low bytes of `v`. -/
def State.store (s : State) (a : Word) (w : Width) (v : Word) : Except Stop State :=
  if w.aligned a then s.storeAligned a w v
  else
    match s.cfg.misaligned with
    | .refuse => .error (.refused (.misalignedAccess a))
    | .trap => .error (.exn .storeMisaligned a)
    | .split =>
      match s.storeBytes (w.addrs a) (w.bytes v) with
      | .error e => .error (e.inAccess a)
      | .ok s1 => .ok s1

/-! ## Hardware stacking (60 R530 to R535) -/

/-- The sixteen caller-saved registers, in the order of a frame (10 R23). -/
def hpeRegs : Vector Reg 16 :=
  #v[1#5, 5#5, 6#5, 7#5, 10#5, 11#5, 12#5, 13#5, 14#5, 15#5, 16#5, 17#5, 28#5, 29#5, 30#5, 31#5]

/-- The place of a register in a frame; none for a register that is not stacked. -/
def hpeIndex (i : Reg) : Option (Fin 16) := (List.finRange 16).find? (fun k => hpeRegs[k] == i)

/-- The frame of the present register values. -/
def State.hpeFrame (s : State) : Vector Word 16 := Vector.ofFn fun k => s.reg hpeRegs[k]

/-- Copy the sixteen registers to the frame of level `lv` (1 or 2). -/
def State.hpePush (s : State) (lv : Nat) : State :=
  if h : lv - 1 < 2 then { s with hpe := s.hpe.set (lv - 1) s.hpeFrame h } else s

/-- Overwrite the sixteen registers from the frame of level `lv`. -/
def State.hpePop (s : State) (lv : Nat) : State :=
  if h : lv - 1 < 2 then
    let frame := s.hpe[lv - 1]
    { s with
      regs :=
        Vector.ofFn fun j : Fin 32 =>
          match hpeIndex (BitVec.ofNat 5 j.val) with
          | some k => frame[k]
          | none => s.regs[j] }
  else s

/-! ## Taking a trap (60 R520 to R525) -/

/-- The parameters of `TrapEntry` (60 R520). -/
structure TrapReq where
  interrupt : Bool
  code : Word
  vec : IrqNum
  actidx : IrqNum
  info : Word
  epc : Word
deriving DecidableEq, Repr

/-- The word written to `mcause` (60 R501, R502). -/
def TrapReq.cause (t : TrapReq) : Word := flagAt t.interrupt 31 ||| t.code

/-- `base` of the vector table: 1 KiB aligned (10 R44). -/
def Mtvec.baseAddr (m : Mtvec) : Word := fieldAt 32 m.base 10

/-- The address in the vector table for a number (60 R524). -/
def Mtvec.entryAddr (m : Mtvec) (vec : IrqNum) : Word := m.baseAddr + fieldAt 32 vec 2

/-- Steps 2 to 4 of `TrapTarget` (60 R524): the entry by `mtvec`. The vector read of step 4 is a machine-mode load. -/
def State.tableTarget (s : State) (vec : IrqNum) : Except Stop (Word × State) :=
  let m := s.csr.mtvec
  if !m.mode0 then
    if m.mode1 then .error (.refused .mtvecMode) else .ok (m.baseAddr, s)
  else if !m.mode1 then .ok (m.entryAddr vec, s)
  else
    match s.loadAligned (m.entryAddr vec) .word with
    | .ok (t, s1) => if t.getLsbD 0 then .error (.refused .oddVectorEntry) else .ok (t, s1)
    | .error (.fault f) => .error (.fault f)
    | .error _ => .error (.refused (.vectorRead (m.entryAddr vec)))

/-- `TrapTarget` (60 R524, R560): a VTF channel for a programmable interrupt, else the table. VTF on a fixed number and two
channels with one number are refused; a channel that is off names nothing (DESIGN CHOICE, log 31). -/
def State.trapTarget (s : State) (t : TrapReq) : Except Stop (Word × State) :=
  match s.vtfMatches t.vec with
  | [] => s.tableTarget t.vec
  | i :: more =>
    if !t.interrupt || !isProgrammable t.vec then .error (.refused (.vtfOnFixed t.vec))
    else if !more.isEmpty then .error (.refused (.vtfDuplicate t.vec))
    else if (s.vtfTarget i).getLsbD 0 then .error (.refused .oddVtfTarget)
    else .ok (s.vtfTarget i, s)

/-- `PendOnEntry` (60 R565): the parameter says whether entry clears the pending bit; a level that is still asserted pends
the number again. -/
def State.pendOnEntry (s : State) (n : IrqNum) : State :=
  if s.cfg.pendClearOnEntry then (s.clearPending (irqBit n)).assertSources else s

/-- Entry and `mret` clear the reservation (92 D14; 43 R312 allows it). -/
def State.clearReservation (s : State) : State := { s with reservation := none }

/-- The trap CSR values an entry overwrites (60 R528). -/
def State.trapCsrs (s : State) : TrapCsrs :=
  ⟨s.csr.mepc, s.csr.mcause, s.csr.mtval, s.csr.mstatus.mpie, s.csr.mstatus.mpp⟩

/-- The writes of `TrapEntry` to the trap CSRs and the mode (60 R520 to R523); `lv` is the level entered. -/
def State.enterCsrs (s : State) (t : TrapReq) (lv : Nat) : State :=
  { s with
    csr :=
      { s.csr with
        mcause := t.cause
        mepc := t.epc
        mtval := t.info
        mstatus :=
          { mie := if s.lastLevel ≤ lv then false else s.csr.mstatus.mie
            mpie := s.csr.mstatus.mie
            mpp := s.priv } }
    priv := .machine }

/-- `Overflow` (60 R537): level 3 is entered on V3B/C only, and sets NEST_OV. -/
def State.overflow (s : State) (lv : Nat) : Except Stop State :=
  if lv ≤ 2 then .ok s
  else if s.isV3A then .error (.refused .thirdLevelOnV3A)
  else if 3 < lv then .error (.refused .trapInOverflow)
  else .ok { s with csr := { s.csr with inestcr := { s.csr.inestcr with nestOv := true } } }

/-- The part of `TrapEntry` before the target (60 R520): stacking, CSRs, mode, active trap, pending bit, reservation; the
handler is not the code that changed its own permission. -/
def State.enterTrap (s : State) (t : TrapReq) : State :=
  let lv := s.level + 1
  let stacked := s.hpeEnabled && decide (lv ≤ 2)
  let s1 := if stacked then s.hpePush lv else s
  let s2 := s1.enterCsrs t lv
  let s3 := { s2 with nest := ⟨t.actidx, stacked, s.trapCsrs⟩ :: s.nest }
  let s4 := if t.interrupt then s3.pendOnEntry t.vec else s3
  s4.clearReservation.pmpSettled

/-- `TrapEntry` (60 R520). Outstanding device writes take effect first (20 R122). -/
def State.trapEntry (s : State) (t : TrapReq) : Out :=
  match s.drainAll.overflow (s.level + 1) with
  | .error (.refused r) => .refused r
  | .error _ => .refused .trapInOverflow
  | .ok s1 =>
    match (s1.enterTrap t).trapTarget t with
    | .ok (target, s2) => .next (s2.setPc target)
    | .error (.fault f) => .fault f
    | .error (.refused r) => .refused r
    | .error _ => .refused (.vectorRead s.pc)

/-- An exception in the program buffer ends it with `cmderr = 3` and takes no trap (61 R630); the first error is kept. -/
def State.progbufFail (s : State) : State :=
  { s with dm := { s.dm with running := false, cmderr := if s.dm.cmderr = 0#3 then 3#3 else s.dm.cmderr } }

/-- The entry of a synchronous exception (60 R503, R520). -/
def Exc.req (v3a : Bool) (e : Exc) (info epc : Word) : TrapReq := ⟨false, e.code, e.vector v3a, 3#8, info, epc⟩

/-- A hardware error taken through NMI (60 R509): as the exception or as the NMI, a free choice; an active NMI handler does
not hold it back (60 R527 item 1 beside R514: DEDUCED, log 28). -/
def State.hardwareError (s : State) (info : Word) : Out :=
  if Config.freeBool s.draws then s.drawn.trapEntry ⟨false, Exc.instrAccess.code, 2#8, 3#8, info, s.pc⟩
  else s.drawn.trapEntry ⟨true, 2#32, 2#8, 2#8, 0#32, s.pc⟩

/-- Raise an exception at the present pc (60 R501): access faults of data are imprecise and faults of the run (20 R120);
in debug mode the program buffer ends (61 R630). -/
def State.raise (s : State) (e : Exc) (info : Word) : Out :=
  if s.debugMode then .next s.progbufFail
  else
    match e with
    | .loadAccess => .fault (.loadAccess info)
    | .storeAccess => .fault (.storeAccess info)
    | .instrAccess =>
      if !s.isV3A && s.csr.corecfgr.nmiIe then s.hardwareError info else s.trapEntry (e.req s.isV3A info s.pc)
    | _ => s.trapEntry (e.req s.isV3A info s.pc)

/-- What a stopped access makes of the instruction. -/
def State.stop (s : State) : Stop → Out
  | .exn e info => s.raise e info
  | .fault f => .fault f
  | .refused r => .refused r
  | .restart s1 => .next s1

/-- An interrupt taken at this boundary (60 R513 step 3): `mepc` is the next instruction's address. -/
def State.takeInterrupt (s : State) (n : IrqNum) : Out :=
  s.trapEntry ⟨true, n.setWidth 32, n, n, 0#32, s.pc⟩

/-! ## Return from a trap (60 R526, R528) -/

/-- The trap CSRs of the outer handler after an inner return (60 R528): each holds the value before the inner entry or the
one the inner trap left. Five free choices. -/
def State.blurOuter (s : State) (o : TrapCsrs) : State :=
  let d := s.draws
  { s with
    csr :=
      { s.csr with
        mepc := if Config.freeBool d then o.mepc else s.csr.mepc
        mcause := if Config.freeBool (d + 1) then o.mcause else s.csr.mcause
        mtval := if Config.freeBool (d + 2) then o.mtval else s.csr.mtval
        mstatus :=
          { s.csr.mstatus with
            mpie := if Config.freeBool (d + 3) then o.mpie else s.csr.mstatus.mpie
            mpp := if Config.freeBool (d + 4) then o.mpp else s.csr.mstatus.mpp } }
    draws := d + 5 }

/-- The mstatus part of `TrapReturn` (60 R526): MIE from MPIE; MPIE and MPP keep their value or take 1 and U (92 D47). -/
def State.returnCsrs (s : State) : State :=
  let st := s.csr.mstatus
  { s with
    csr :=
      { s.csr with
        mstatus :=
          { mie := st.mpie
            mpie := if Config.freeBool s.draws then st.mpie else true
            mpp := if Config.freeBool (s.draws + 1) then st.mpp else .user } }
    draws := s.draws + 2 }

/-- Hardware clears GIHWSTKNEN after the return (60 R526, R529); V3B/C. -/
def State.clearGihwstknen (s : State) : State :=
  if s.isV3A then s else { s with csr := { s.csr with intsyscr := { s.csr.intsyscr with gihwstknen := false } } }

/-- Leave the innermost trap (60 R526): its active bit clears, its frame returns if stacking is on. A frame pushed at the entry is
dropped, and no register restored, where stacking is off now: 60 R532 and 70 R668 say so, against 93 U66, which refuses a switch
of HWSTKEN in between (DEDUCED, log 54). -/
def State.leaveTrap (s : State) : Except Refusal State :=
  match s.nest with
  | [] => .ok s
  | e :: rest =>
    if s.hpeEnabled && !e.stacked then .error .unstackWithoutFrame
    else
      let s1 := if s.hpeEnabled then s.hpePop s.level else s
      let s2 := { s1 with nest := rest }
      .ok (if rest.isEmpty then s2 else s2.blurOuter e.outer)

/-- The sleep that `mret` from level 1 enters when SLEEPONEXIT is set (61 R616). -/
def State.sleepOnExit (s : State) (fromLevel : Nat) : State :=
  if fromLevel = 1 ∧ s.pfic.sleeponexit ∧ ¬s.debugMode then { s with sleep := some .wfi } else s

/-- `TrapReturn` (60 R526). Outstanding device writes take effect first (20 R122). -/
def State.trapReturn (s0 : State) : Out :=
  let s := s0.drainAll
  if s.csr.mepc.getLsbD 0 then .refused .oddMepc
  else if s.level = 3 then .refused .mretFromOverflow
  else
    match s.returnCsrs.leaveTrap with
    | .error r => .refused r
    | .ok s1 =>
      .next
        ((({ s1.clearGihwstknen.clearReservation with priv := s.csr.mstatus.mpp, pc := s.csr.mepc } : State)).sleepOnExit
          s.level)

/-! ## Breakpoints (40 R240, 61 R630) -/

/-- The program buffer has ended (61 R630). -/
def State.progbufDone (s : State) : State := { s with dm := { s.dm with running := false } }

/-- `dcsr` asks that a breakpoint instruction of this mode enter debug mode (10 R57); without a debugger it never does. -/
def State.ebreakHalts (s : State) : Bool :=
  s.cfg.debuggerPresent && (if s.priv = .machine then s.dbg.dcsr.ebreakm else s.dbg.dcsr.ebreaku)

/-- The breakpoint instructions (40 R240, 44 R366, 60 R506): the end of a program buffer in debug mode, debug entry where
`dcsr` asks for it, else the breakpoint exception with `mtval = 0`. -/
def State.breakpoint (s : State) : Out :=
  if s.debugMode then .next s.progbufDone
  else if s.ebreakHalts then .next (s.enterDebug 1#3 s.pc)
  else s.raise .breakpoint 0#32

/-! ## Sleep (61 R611, R613) -/

/-- `WaitForInterrupt` and `WaitForEvent` up to falling asleep, after `pc` has moved on; device writes take effect first. -/
def State.goToSleep (s0 : State) : State :=
  let s := s0.drainAll
  if s.debugMode then s
  else if s.pfic.wfitowfe then
    if s.eventPending then { s with eventPending := false } else { s with sleep := some .wfe }
  else { s with sleep := some .wfi }

end Sys2Proof.Machine
end

