-- ==== Sys2Proof/Machine/Csr.lean ====
section
/-! DEFINITION. The control and status registers (10_state.md R40 to R63): what each number reads, the access check of
41_zicsr_system.md R262, and the write rule of R273. -/

namespace Sys2Proof.Machine

/-- The 2-bit encoding of a mode (10 R28). -/
def Priv.bits : Priv → BitVec 2
  | .user => 0#2
  | .machine => 3#2

/-- The mode of a 2-bit field; none for `0b01` and `0b10`, which the core does not have. -/
def Priv.ofBits (b : BitVec 2) : Option Priv :=
  match b with
  | 0#2 => some .user
  | 3#2 => some .machine
  | _ => none

/-- The CSR numbers of every member (10 R40). -/
def csrOnAll (a : CsrNum) : Bool :=
  [0xF12#12, 0xF13#12, 0x300#12, 0x301#12, 0x305#12, 0x340#12, 0x341#12, 0x342#12, 0x343#12, 0x7B0#12, 0x7B1#12, 0x7B2#12,
    0x7B3#12].contains a

/-- The four vendor numbers (10 R40), "not valid" on V3A. -/
def csrVendor (a : CsrNum) : Bool := [0x800#12, 0x804#12, 0xBC0#12, 0xBC1#12].contains a

/-- The PMP and trigger numbers, which V3A does not implement (10 R40, 92 D25, D35). -/
def csrOnV3BC (a : CsrNum) : Bool :=
  [0x3A0#12, 0x3B0#12, 0x3B1#12, 0x3B2#12, 0x3B3#12, 0x7A0#12, 0x7A1#12, 0x7A2#12].contains a || csrVendor a

/-- The member implements the number (10 R40). -/
def State.csrImplemented (s : State) (a : CsrNum) : Bool := csrOnAll a || (!s.isV3A && csrOnV3BC a)

/-- The answer of the access check. -/
inductive CsrAccess where
  | ok
  | illegal
  | refused (r : Refusal)
deriving DecidableEq, Repr

/-- The access check (41 R262), `w` = the instruction writes. -/
def State.csrCheck (s : State) (a : CsrNum) (w : Bool) : CsrAccess :=
  if !s.csrImplemented a then (if s.isV3A && csrVendor a then .refused (.vendorCsrOnV3A a) else .illegal)
  else if a.extractLsb' 2 10 == 0x1EC#10 && !s.debugMode then .illegal
  else if s.priv.bits.toNat < (a.extractLsb' 8 2).toNat then .illegal
  else if w && a.extractLsb' 10 2 == 3#2 then .illegal
  else if a == 0x804#12 && s.priv == .user && s.csr.intsyscr.lock then .illegal
  else if w && (a == 0x7A1#12 || a == 0x7A2#12) && !s.debugMode then .refused (.triggerWrite a)
  else .ok

/-! ## Reading -/

/-- `mstatus` as a word (10 R43). -/
def Mstatus.word (m : Mstatus) : Word := flagAt m.mie 3 ||| flagAt m.mpie 7 ||| fieldAt 32 m.mpp.bits 11

/-- `mtvec` as a word (10 R44). -/
def Mtvec.word (m : Mtvec) : Word := m.baseAddr ||| flagAt m.mode1 1 ||| flagAt m.mode0 0

/-- `intsyscr` as a word (10 R61). -/
def Intsyscr.word (i : Intsyscr) : Word :=
  flagAt i.lock 31 ||| flagAt i.gihwstknen 5 ||| fieldAt 32 i.pmtcfg 2 ||| flagAt i.inesten 1 ||| flagAt i.hwstken 0

/-- `corecfgr` as a word (10 R62). -/
def Corecfgr.word (c : Corecfgr) : Word :=
  flagAt c.nmiIe 7 ||| flagAt c.ieRemapEn 5 ||| flagAt c.romLoopAcc 3 ||| flagAt c.romJumpAcc 2 ||| flagAt c.prefetch 0

/-- `inestcr` as a word (10 R63): NEST_STA is `2^level - 1`. -/
def Inestcr.word (i : Inestcr) (level : Nat) : Word :=
  flagAt i.nestOv 30 ||| (nestStatus level <<< 8) ||| flagAt i.nestLvl 0

/-- The two bits of `pmp<i>cfg.A` (10 R49). -/
def PmpMode.bits : PmpMode → BitVec 2
  | .off => 0#2
  | .tor => 1#2
  | .na4 => 2#2
  | .napot => 3#2

/-- The mode of two bits. -/
def PmpMode.ofBits (b : BitVec 2) : PmpMode :=
  match b with
  | 0#2 => .off
  | 1#2 => .tor
  | 2#2 => .na4
  | _ => .napot

/-- `pmp<i>cfg` as a byte (10 R49). -/
def PmpCfg.byte (c : PmpCfg) : Byte :=
  (flagAt c.l 7 ||| flagAt c.x 2 ||| flagAt c.w 1 ||| flagAt c.r 0).setWidth 8 ||| fieldAt 8 c.a.bits 3

/-- `pmpcfg0` as a word. -/
def Pmp.cfgWord (p : Pmp) : Word := assemble [p.cfg[0].byte, p.cfg[1].byte, p.cfg[2].byte, p.cfg[3].byte]

/-- `tdata1` of a channel as a word (10 R55): TYPE 2, DMODE 1, MASKMAX 0x1F. -/
def TriggerChannel.tdata1 (t : TriggerChannel) : Word :=
  0x2BE00000#32 ||| flagAt t.action 12 ||| flagAt t.range 7 ||| flagAt t.m 6 ||| flagAt t.u 3 ||| flagAt t.execute 2 |||
    flagAt t.store 1 ||| flagAt t.load 0

/-- The channel that `tselect` selects (10 R51). -/
def Triggers.current (t : Triggers) : TriggerChannel := t.channel[t.select.toNat]'(by have := t.select.isLt; omega)

/-- `dcsr` as a word (10 R57): xdebugver 4. -/
def Dcsr.word (d : Dcsr) : Word :=
  0x40000000#32 ||| flagAt d.ebreakm 15 ||| flagAt d.ebreaku 12 ||| flagAt d.stepie 11 ||| flagAt d.stoptime 9 |||
    fieldAt 32 d.cause 6 ||| flagAt d.step 2 ||| fieldAt 32 d.prv.bits 0

/-- `marchid` (10 R52). -/
def marchidOf : Variant → Word
  | .v3a => 0#32
  | .v3b => 0xDC68D862#32
  | .v3c => 0xDC68D863#32

/-- `mimpid` (10 R53). -/
def mimpidOf (c : Config) : Word :=
  if c.variant.isV3A then 0#32 else 0xDC688000#32 + fieldAt 32 c.coreMinor 4 + fieldAt 32 c.coreMajor 0

/-- `misa` (10 R54). -/
def misaOf (c : Config) : Word := if c.variant.isV3A then 0x40101105#32 else c.misaValue

/-- What a CSR number reads (10 R43 to R63); 0 for a number the access check has already turned away. -/
def State.csrRead (s : State) (a : CsrNum) : Word :=
  match a with
  | 0xF12#12 => marchidOf s.cfg.variant
  | 0xF13#12 => mimpidOf s.cfg
  | 0x300#12 => s.csr.mstatus.word
  | 0x301#12 => misaOf s.cfg
  | 0x305#12 => s.csr.mtvec.word
  | 0x340#12 => s.csr.mscratch
  | 0x341#12 => s.csr.mepc
  | 0x342#12 => s.csr.mcause
  | 0x343#12 => s.csr.mtval
  | 0x3A0#12 => s.pmp.cfgWord
  | 0x3B0#12 => s.pmp.addr[0]
  | 0x3B1#12 => s.pmp.addr[1]
  | 0x3B2#12 => s.pmp.addr[2]
  | 0x3B3#12 => s.pmp.addr[3]
  | 0x7A0#12 => fieldAt 32 s.trig.select 0
  | 0x7A1#12 => s.trig.current.tdata1
  | 0x7A2#12 => s.trig.current.tdata2
  | 0x7B0#12 => s.dbg.dcsr.word
  | 0x7B1#12 => s.dbg.dpc
  | 0x7B2#12 => s.dbg.dscratch0
  | 0x7B3#12 => s.dbg.dscratch1
  | 0x800#12 => s.csr.mstatus.word
  | 0x804#12 => s.csr.intsyscr.word
  | 0xBC0#12 => s.csr.corecfgr.word
  | 0xBC1#12 => s.csr.inestcr.word s.level
  | _ => 0#32

/-! ## Writing (41 R273) -/

/-- A mode field after a write: a legal value is stored, an illegal one leaves a free choice of the two modes (92 D9). -/
def State.modeField (s : State) (b : BitVec 2) : Priv :=
  match Priv.ofBits b with
  | some p => p
  | none => s.pick .machine .user

/-- The state after a mode field has been written: an illegal value took a free value. -/
def State.afterModeField (s : State) (b : BitVec 2) : State := if (Priv.ofBits b).isSome then s else s.drawn

/-- Write `mstatus` (10 R43). -/
def State.writeMstatus (s : State) (v : Word) : State :=
  let b := v.extractLsb' 11 2
  { s.afterModeField b with
    csr := { s.csr with mstatus := { mie := v.getLsbD 3, mpie := v.getLsbD 7, mpp := s.modeField b } } }

/-- Write `mtvec` (10 R44): MODE1 is fixed 0 on V3A. -/
def State.writeMtvec (s : State) (v : Word) : State :=
  { s with
    csr :=
      { s.csr with
        mtvec := { base := v.extractLsb' 10 22, mode1 := !s.isV3A && v.getLsbD 1, mode0 := v.getLsbD 0 } } }

/-- One byte of a `pmpcfg0` write (41 R273): a locked byte keeps its value; `R = 0, W = 1` gives a free legal combination
(20 R138), from the draws counted from `d`. -/
def PmpCfg.written (old : PmpCfg) (d : Nat) (b : Byte) : PmpCfg :=
  if old.l then old
  else
    let a := PmpMode.ofBits (b.extractLsb' 3 2)
    if !b.getLsbD 0 && b.getLsbD 1 then
      { l := b.getLsbD 7
        a := a
        x := Config.freeBool (d + 2)
        w := Config.freeBool d && Config.freeBool (d + 1)
        r := Config.freeBool d }
    else { l := b.getLsbD 7, a := a, x := b.getLsbD 2, w := b.getLsbD 1, r := b.getLsbD 0 }

/-- The record a PMP write leaves for the program's next fetch (20 R140); the debugger's writes leave none (log 26). -/
def State.pmpRecord (s : State) : Option Pmp := if s.debugMode then none else some s.pmp

/-- Write `pmpcfg0`; the earlier PMP state is kept for the next fetch (20 R140). Twelve draws are set aside for it. -/
def State.writePmpcfg (s : State) (v : Word) : State :=
  { s with
    pmp :=
      { s.pmp with
        cfg :=
          #v[s.pmp.cfg[0].written s.draws (v.extractLsb' 0 8), s.pmp.cfg[1].written (s.draws + 3) (v.extractLsb' 8 8),
            s.pmp.cfg[2].written (s.draws + 6) (v.extractLsb' 16 8), s.pmp.cfg[3].written (s.draws + 9) (v.extractLsb' 24 8)] }
    pmpBefore := s.pmpRecord
    draws := s.draws + 12 }

/-- Write `pmpaddr<i>` (10 R50, 20 R139): ignored when locked; bits 31 to 30 are free. -/
def State.writePmpaddr (s : State) (i : Fin 4) (v : Word) : State :=
  if s.pmp.addrLocked i then s
  else
    { s with
      pmp :=
        { s.pmp with
          addr := s.pmp.addr.set i.val ((v &&& 0x3FFFFFFF#32) ||| (Config.freeWord s.draws &&& 0xC0000000#32)) i.isLt }
      pmpBefore := s.pmpRecord
      draws := s.draws + 1 }

/-- Write the selected channel's `tdata1` fields (10 R55); debug mode only. -/
def State.writeTdata1 (s : State) (v : Word) : State :=
  let c : TriggerChannel :=
    { s.trig.current with
      action := v.getLsbD 12
      range := v.getLsbD 7
      m := v.getLsbD 6
      u := v.getLsbD 3
      execute := v.getLsbD 2
      store := v.getLsbD 1
      load := v.getLsbD 0 }
  { s with
    trig := { s.trig with channel := s.trig.channel.set s.trig.select.toNat c (by have := s.trig.select.isLt; omega) } }

/-- Write the selected channel's `tdata2` (10 R56); debug mode only. -/
def State.writeTdata2 (s : State) (v : Word) : State :=
  let c : TriggerChannel := { s.trig.current with tdata2 := v }
  { s with
    trig := { s.trig with channel := s.trig.channel.set s.trig.select.toNat c (by have := s.trig.select.isLt; omega) } }

/-- Write `dcsr` (10 R57, 41 R273). -/
def State.writeDcsr (s : State) (v : Word) : State :=
  let b := v.extractLsb' 0 2
  { s.afterModeField b with
    dbg :=
      { s.dbg with
        dcsr :=
          { s.dbg.dcsr with
            ebreakm := v.getLsbD 15
            ebreaku := v.getLsbD 12
            stepie := v.getLsbD 11
            stoptime := v.getLsbD 9
            step := v.getLsbD 2
            prv := s.modeField b } } }

/-- Write `gintenr` (10 R60): the window on MIE and MPIE while IE_REMAP_EN is 1, else ignored. -/
def State.writeGintenr (s : State) (v : Word) : State :=
  if s.csr.corecfgr.ieRemapEn then
    { s with csr := { s.csr with mstatus := { s.csr.mstatus with mie := v.getLsbD 3, mpie := v.getLsbD 7 } } }
  else s

/-- LOCK after a write of `intsyscr` (10 R61, 92 D44): a user-mode write keeps it; a machine-mode write leaves it 0 only if
it was 0 and writes 0, else it is free. -/
def State.lockField (s : State) (v31 : Bool) : Bool :=
  if s.priv = .user then s.csr.intsyscr.lock
  else if v31 || s.csr.intsyscr.lock then Config.freeBool s.draws
  else false

/-- Write `intsyscr` (10 R61, 41 R273): INESTEN and PMTCFG are writable from version 1.0 on (92 D31). -/
def State.writeIntsyscr (s : State) (v : Word) : State :=
  let old := s.csr.intsyscr
  { s with
    csr :=
      { s.csr with
        intsyscr :=
          { lock := s.lockField (v.getLsbD 31)
            gihwstknen := old.gihwstknen || v.getLsbD 5
            pmtcfg := if s.cfg.fromV1 then v.extractLsb' 2 2 else old.pmtcfg
            inesten := if s.cfg.fromV1 then v.getLsbD 1 else old.inesten
            hwstken := v.getLsbD 0 } }
    draws := if s.priv = .machine ∧ (v.getLsbD 31 ∨ old.lock) then s.draws + 1 else s.draws }

/-- Write `corecfgr` (10 R62): a reserved FETCH_MODE is refused. -/
def State.writeCorecfgr (s : State) (v : Word) : Except Refusal State :=
  if v.getLsbD 1 then .error .reservedFetchMode
  else
    .ok
      { s with
        csr :=
          { s.csr with
            corecfgr :=
              { nmiIe := v.getLsbD 7
                ieRemapEn := v.getLsbD 5
                romLoopAcc := v.getLsbD 3
                romJumpAcc := v.getLsbD 2
                prefetch := v.getLsbD 0 } } }

/-- Write `inestcr` (10 R63): NEST_OV is cleared by writing 1, NEST_LVL holds 01 for every non-zero value. -/
def State.writeInestcr (s : State) (v : Word) : State :=
  { s with
    csr :=
      { s.csr with
        inestcr :=
          { nestOv := s.csr.inestcr.nestOv && !v.getLsbD 30, nestLvl := v.getLsbD 0 || v.getLsbD 1 } } }

/-- `CSR[a] <- v` by the register's own rule (41 R273); `marchid`, `mimpid` and `misa` ignore it. -/
def State.csrWrite (s : State) (a : CsrNum) (v : Word) : Except Refusal State :=
  match a with
  | 0x300#12 => .ok (s.writeMstatus v)
  | 0x305#12 => .ok (s.writeMtvec v)
  | 0x340#12 => .ok { s with csr := { s.csr with mscratch := v } }
  | 0x341#12 => .ok { s with csr := { s.csr with mepc := v } }
  | 0x342#12 => .ok { s with csr := { s.csr with mcause := v } }
  | 0x343#12 => .ok { s with csr := { s.csr with mtval := v } }
  | 0x3A0#12 => .ok (s.writePmpcfg v)
  | 0x3B0#12 => .ok (s.writePmpaddr 0 v)
  | 0x3B1#12 => .ok (s.writePmpaddr 1 v)
  | 0x3B2#12 => .ok (s.writePmpaddr 2 v)
  | 0x3B3#12 => .ok (s.writePmpaddr 3 v)
  | 0x7A0#12 => .ok { s with trig := { s.trig with select := v.extractLsb' 0 2 } }
  | 0x7A1#12 => .ok (s.writeTdata1 v)
  | 0x7A2#12 => .ok (s.writeTdata2 v)
  | 0x7B0#12 => .ok (s.writeDcsr v)
  | 0x7B1#12 => .ok { s with dbg := { s.dbg with dpc := v } }
  | 0x7B2#12 => .ok { s with dbg := { s.dbg with dscratch0 := v } }
  | 0x7B3#12 => .ok { s with dbg := { s.dbg with dscratch1 := v } }
  | 0x800#12 => .ok (s.writeGintenr v)
  | 0x804#12 => .ok (s.writeIntsyscr v)
  | 0xBC0#12 => s.writeCorecfgr v
  | 0xBC1#12 => .ok (s.writeInestcr v)
  | _ => .ok s

/-- A CSR instruction (41 R261 to R268): the check, the old value to `rd`, the new value by the write rule if it writes.
`bits` is the instruction word, for `mtval`. -/
def State.csrInstr (s : State) (bits : Word) (rd : Reg) (a : CsrNum) (writes : Bool) (new : Word → Word) : Out :=
  match s.csrCheck a writes with
  | .illegal => s.raise .illegal bits
  | .refused r => .refused r
  | .ok =>
    if writes then
      match s.csrWrite a (new (s.csrRead a)) with
      | .error r => .refused r
      | .ok s1 => .next ((s1.setReg rd (s.csrRead a)).advance 4#32)
    else .next ((s.setReg rd (s.csrRead a)).advance 4#32)

end Sys2Proof.Machine
end

