-- ==== Sys2Proof/Machine/Operands.lean ====
section
/-! DEFINITION. Operand forms (30_encoding.md R152, R155; 44_c_compressed.md R341) and the ways an instruction ends: a result
written back, a jump with or without a link, a conditional branch. -/

namespace Sys2Proof.Machine

/-- The register of a 3-bit field: x8 to x15 (44 R341). -/
def creg (r : CReg) : Reg := fieldAt 5 r 0 ||| 8#5

/-- A sign-extended immediate (30 R152, R155). -/
def simm {n : Nat} (imm : BitVec n) : Word := imm.signExtend 32

/-- A zero-extended immediate (30 R155). -/
def uimm {n : Nat} (imm : BitVec n) : Word := imm.setWidth 32

/-- `imm_U`: the 20-bit field in bits 31 to 12 (30 R152). -/
def upperImm (imm : BitVec 20) : Word := fieldAt 32 imm 12

/-- The value of `c.lui`: the 6-bit field in bits 17 to 12, sign-extended (30 R155). -/
def cLuiImm (imm : BitVec 6) : Word := (fieldAt 18 imm 12).signExtend 32

/-- The stack pointer, x2, which the sp-relative forms name (44 R343, R363, R369). -/
def sp : Reg := 2#5

/-- The link register of `c.jal` and `c.jalr`, x1 (44 R348, R367). -/
def ra : Reg := 1#5

/-- Write a result and move on (40 R200). -/
def State.writeBack (s : State) (rd : Reg) (v : Word) (ilen : Word) : Out := .next ((s.setReg rd v).advance ilen)

/-- Jump to a target, the address of the next instruction in `rd` (40 R203, R204). -/
def State.jumpLink (s : State) (rd : Reg) (target : Word) (ilen : Word) : Out :=
  .next ((s.setReg rd (s.pc + ilen)).setPc target)

/-- A register target with bit 0 cleared (40 R204, 44 R364). -/
def evenTarget (v : Word) : Word := v &&& 0xFFFFFFFE#32

/-- A conditional branch relative to the branch's own address (40 R205). -/
def State.branch (s : State) (taken : Bool) (offset : Word) (ilen : Word) : Out :=
  .next (if taken then s.setPc (s.pc + offset) else s.advance ilen)

end Sys2Proof.Machine
end

