-- ==== Sys2Proof/Machine/Flags.lean ====
section
/-! DEFINITION. The hardware has no flags register and no condition codes (10_state.md R29): no instruction writes a status
flag. What takes the place of flags are the comparisons of two register values, named here once. -/

namespace Sys2Proof.Machine

/-- `a <s b`: two's-complement comparison (00 R10). -/
def ltSigned (a b : Word) : Bool := decide (a.toInt < b.toInt)

/-- `a <u b`: comparison of natural numbers (00 R10). -/
def ltUnsigned (a b : Word) : Bool := decide (a.toNat < b.toNat)

/-- A comparison as a register value: 1 or 0 (40 R220). -/
def boolWord (b : Bool) : Word := if b then 1#32 else 0#32

end Sys2Proof.Machine
end

