-- ==== Sys2Proof/Machine/Alu.lean ====
section
/-! DEFINITION. The values of the arithmetic, multiply, divide, bit-manipulation and atomic operations
(40_rv32i_base.md R219 to R237, 42_m_muldiv.md R291 to R299, 43_a_atomics.md R318 to R326, 45_b_bitmanip.md R391 to R419). -/

namespace Sys2Proof.Machine

/-- `x << n`, `n` from 0 to 31. -/
def shiftLeft (x : Word) (n : BitVec 5) : Word := x <<< n.toNat

/-- `x >>u n`: zeros shifted in. -/
def shiftRight (x : Word) (n : BitVec 5) : Word := x >>> n.toNat

/-- `x >>s n`: copies of bit 31 shifted in. -/
def shiftRightArith (x : Word) (n : BitVec 5) : Word := x.sshiftRight n.toNat

/-- The shift amount or bit index in a register: its low five bits (40 R230, 45 R390). -/
def low5 (x : Word) : BitVec 5 := x.extractLsb' 0 5

/-- Bits 63 to 32 of an exact product (42 R290). -/
def highWord (p : Int) : Word := BitVec.ofInt 32 (p / 2 ^ 32)

/-- `mul` (42 R291). -/
def mulLow (a b : Word) : Word := a * b

/-- `mulh` (42 R292). -/
def mulHigh (a b : Word) : Word := highWord (a.toInt * b.toInt)

/-- `mulhsu` (42 R293): the first operand signed, the second unsigned. -/
def mulHighSU (a b : Word) : Word := highWord (a.toInt * (b.toNat : Int))

/-- `mulhu` (42 R294). -/
def mulHighU (a b : Word) : Word := highWord ((a.toNat : Int) * (b.toNat : Int))

/-- `div` (42 R295, R299): rounds toward zero; -1 by zero; the dividend on overflow. -/
def divSigned (a b : Word) : Word :=
  if b = 0#32 then 0xFFFFFFFF#32
  else if a = 0x80000000#32 ∧ b = 0xFFFFFFFF#32 then 0x80000000#32
  else BitVec.ofInt 32 (a.toInt.tdiv b.toInt)

/-- `divu` (42 R296, R299). -/
def divUnsigned (a b : Word) : Word := if b = 0#32 then 0xFFFFFFFF#32 else BitVec.ofNat 32 (a.toNat / b.toNat)

/-- `rem` (42 R297, R299): the sign of the dividend; the dividend by zero; 0 on overflow. -/
def remSigned (a b : Word) : Word :=
  if b = 0#32 then a
  else if a = 0x80000000#32 ∧ b = 0xFFFFFFFF#32 then 0#32
  else BitVec.ofInt 32 (a.toInt - b.toInt * a.toInt.tdiv b.toInt)

/-- `remu` (42 R298, R299). -/
def remUnsigned (a b : Word) : Word := if b = 0#32 then a else BitVec.ofNat 32 (a.toNat % b.toNat)

/-- The larger, signed: `max` (45 R400) and `amomax.w` (43 R324). -/
def maxSigned (a b : Word) : Word := if ltSigned a b then b else a

/-- The larger, unsigned: `maxu` (45 R401) and `amomaxu.w` (43 R326). -/
def maxUnsigned (a b : Word) : Word := if ltUnsigned a b then b else a

/-- The smaller, signed: `min` (45 R402) and `amomin.w` (43 R323). -/
def minSigned (a b : Word) : Word := if ltSigned a b then a else b

/-- The smaller, unsigned: `minu` (45 R403) and `amominu.w` (43 R325). -/
def minUnsigned (a b : Word) : Word := if ltUnsigned a b then a else b

/-- `clz` (45 R397): 0 bits above the highest 1 bit, 32 for zero. -/
def leadingZeros (x : Word) : Nat := ((List.range 32).find? (fun i => x.getLsbD (31 - i))).getD 32

/-- `ctz` (45 R398): 0 bits below the lowest 1 bit, 32 for zero. -/
def trailingZeros (x : Word) : Nat := ((List.range 32).find? (fun i => x.getLsbD i)).getD 32

/-- `cpop` (45 R399): the number of 1 bits. -/
def popCount (x : Word) : Nat := (List.range 32).countP (fun i => x.getLsbD i)

/-- The low byte, sign-extended (40 R211, 45 R404). -/
def sext8 (x : Word) : Word := (x.extractLsb' 0 8).signExtend 32

/-- The low halfword, sign-extended (40 R212, 45 R405). -/
def sext16 (x : Word) : Word := (x.extractLsb' 0 16).signExtend 32

/-- The low byte, zero-extended (40 R214). -/
def zext8 (x : Word) : Word := (x.extractLsb' 0 8).setWidth 32

/-- The low halfword, zero-extended (40 R215, 45 R406). -/
def zext16 (x : Word) : Word := (x.extractLsb' 0 16).setWidth 32

/-- `(32 - n) mod 32` (45 R407). -/
def rotateBack (n : BitVec 5) : BitVec 5 := BitVec.ofNat 5 ((32 - n.toNat) % 32)

/-- `rol` (45 R407). -/
def rotateLeft (x : Word) (n : BitVec 5) : Word := shiftLeft x n ||| shiftRight x (rotateBack n)

/-- `ror` and `rori` (45 R408, R409). -/
def rotateRight (x : Word) (n : BitVec 5) : Word := shiftRight x n ||| shiftLeft x (rotateBack n)

/-- A byte of `orc.b` (45 R410). -/
def orByte (b : Byte) : Byte := if b = 0#8 then 0x00#8 else 0xFF#8

/-- `orc.b` (45 R410). -/
def orCombine (x : Word) : Word := assemble ((Word.bytes x).map orByte)

/-- `rev8` (45 R411). -/
def byteReverse (x : Word) : Word := assemble (Word.bytes x).reverse

/-- One bit set, `1 << n` (45 R412). -/
def oneBit (n : BitVec 5) : Word := shiftLeft 1#32 n

end Sys2Proof.Machine
end

