-- ==== Sys2Proof/Machine/Access.lean ====
section
/-! DEFINITION. Loads, stores and atomics as instructions (20_memory.md, 43_a_atomics.md), with the hardware triggers that
watch them (61_systick_sleep_debug.md R634). -/

namespace Sys2Proof.Machine

/-! ## Triggers -/

/-- The channel watches this kind of access in this mode (61 R634). -/
def TriggerChannel.watches (c : TriggerChannel) (p : Priv) (k : AccessKind) : Bool :=
  (match p with
    | .machine => c.m
    | .user => c.u) &&
  (match k with
    | .fetch => c.execute
    | .load => c.load
    | .store => c.store)

/-- The value meets the channel's match value (61 R634): equal, or equal above the lowest 0 bit of `tdata2`. -/
def TriggerChannel.hits (c : TriggerChannel) (v : Word) : Bool :=
  if c.range then decide (v.toNat / 2 ^ (lowestZero c.tdata2 + 1) = c.tdata2.toNat / 2 ^ (lowestZero c.tdata2 + 1))
  else v == c.tdata2

/-- The answer of the triggers. -/
inductive TriggerAnswer where
  | pass
  | fire
  | refused (r : Refusal)
deriving DecidableEq, Repr

/-- Do the triggers fire on a value (61 R634)? V3A has none; in debug mode none fires. -/
def State.triggered (s : State) (k : AccessKind) (v : Word) : TriggerAnswer :=
  if s.isV3A || s.debugMode then .pass
  else
    let live := s.trig.channel.toList.filter (fun c => c.watches s.priv k)
    if live.any (fun c => c.range && c.tdata2 == 0xFFFFFFFF#32) then .refused .triggerAllOnes
    else
      let hit := live.filter (fun c => c.hits v)
      if hit.any (fun c => c.action) then .refused .triggerAction
      else if hit.isEmpty then .pass
      else .fire

/-! ## Loads and stores -/

/-- A data breakpoint (61 R634, 92 D53): the access has been performed or not, a free choice; then the breakpoint trap with
the instruction's pc in `mtval`. `done` is the state with the access performed, if it can be. -/
def State.dataBreakpoint (s : State) (done : Option State) : Out :=
  match done with
  | none => s.raise .breakpoint s.pc
  | some t => (if Config.freeBool s.draws then t.drawn else s.drawn).raise .breakpoint s.pc

/-- The destination of a load that ends in an access fault holds a free value: 20 R120 makes it a draw whether it is written,
and with what. It shows in debug mode only, where the run goes on (log 27). -/
def State.faultingLoad (s : State) (rd : Reg) : State := s.drawn.setReg rd (Config.freeWord s.draws)

/-- What a stopped access makes of a load into `rd`. -/
def State.loadStop (s : State) (rd : Reg) : Stop → Out
  | .exn .loadAccess info => (s.faultingLoad rd).raise .loadAccess info
  | e => s.stop e

/-- A load instruction: `x[rd] <- ext (MemRead a)` (40 section 3). -/
def State.loadTo (s : State) (rd : Reg) (a : Word) (w : Width) (ext : Word → Word) (ilen : Word) : Out :=
  match s.triggered .load a with
  | .refused r => .refused r
  | .fire =>
    s.dataBreakpoint
      (match s.load a w with
        | .ok (v, s1) => some (s1.setReg rd (ext v))
        | .error _ => none)
  | .pass =>
    match s.load a w with
    | .ok (v, s1) => s1.writeBack rd (ext v) ilen
    | .error e => s.loadStop rd e

/-- A store instruction: `MemWrite a` of the low bytes of `v` (40 section 4). A store of SYSRESET on which a trigger fires has
reset the system or has not been performed, a free choice (61 R634, 70 R651, 92 D53; DEDUCED, log 34). -/
def State.storeFrom (s : State) (a : Word) (w : Width) (v : Word) (ilen : Word) : Out :=
  match s.triggered .store a with
  | .refused r => .refused r
  | .fire =>
    match s.store a w v with
    | .ok s1 => s.dataBreakpoint (some s1)
    | .error (.restart s1) => if Config.freeBool s.draws then .next s1.drawn else s.drawn.raise .breakpoint s.pc
    | .error _ => s.dataBreakpoint none
  | .pass =>
    match s.store a w v with
    | .ok s1 => .next (s1.advance ilen)
    | .error e => s.stop e

/-! ## Atomics (43_a_atomics.md) -/

/-- `lr.w` (43 R316). -/
def State.loadReserved (s : State) (rd : Reg) (a : Word) : Out :=
  if !Width.word.aligned a then s.raise .loadMisaligned a
  else if s.pmpOk .load (Width.word.addrs a) && s.target (Width.word.addrs a) == .device then .refused (.atomicOnDevice a)
  else
    match s.loadAligned a .word with
    | .ok (v, s1) => State.writeBack { s1 with reservation := some a } rd v 4#32
    | .error e => s.loadStop rd e

/-- `sc.w` (43 R313, R317): on a device it is refused (70 R677, 92 D33); it fails without a reservation of exactly this
address, else a free choice. -/
def State.storeConditional (s : State) (rd : Reg) (a : Word) (v : Word) : Out :=
  let bytes := Width.word.addrs a
  if !Width.word.aligned a then s.raise .storeMisaligned a
  else if s.pmpOk .store bytes && s.target bytes == .device then .refused (.atomicOnDevice a)
  else if s.pmpOk .store bytes && s.target bytes == .platform then .refused (.platformDevice a)
  else if s.reservation = some a then
    if Config.freeBool s.draws then
      match State.storeAligned { s.drawn with reservation := none } a .word v with
      | .ok s1 => s1.writeBack rd 0#32 4#32
      | .error e => s.drawn.stop e
    else State.writeBack { s.drawn with reservation := none } rd 1#32 4#32
  else State.writeBack { s with reservation := none } rd 1#32 4#32

/-- An AMO (43 section 3): the old word to `rd`, the new one to memory; refused on a device (70 R677, 92 D33, log 36); a
failing access, one to ROM among them (DEDUCED, log 50), is a store access fault, its `rd` as that of a faulting load. -/
def State.amo (s : State) (rd : Reg) (a : Word) (new : Word → Word) : Out :=
  let bytes := Width.word.addrs a
  if !Width.word.aligned a then s.raise .storeMisaligned a
  else if !s.pmpOk .load bytes || !s.pmpOk .store bytes then (s.faultingLoad rd).raise .storeAccess a
  else
    match s.target bytes with
    | .device => .refused (.atomicOnDevice a)
    | .platform => .refused (.platformDevice a)
    | .nothing | .rom => (s.faultingLoad rd).raise .storeAccess a
    | .ram =>
      match s.bytesAt bytes with
      | .error e => .fault (.unwrittenMemory e)
      | .ok bs => ((s.storeClears a).setBytes bytes (Width.word.bytes (new (assemble bs)))).writeBack rd (assemble bs) 4#32

end Sys2Proof.Machine
end

