-- ==== Sys2Proof/Machine/Atomics.lean ====
section
/-! DEFINITION. The A extension (43_a_atomics.md R316 to R326). The ordering bits change nothing one hart can see (R314). -/

namespace Sys2Proof.Machine

/-- `lr.w` (43 R316). -/
def execLrW (rd rs1 : Reg) (_aq _rl : BitVec 1) (s : State) : Out := s.loadReserved rd (s.reg rs1)

/-- `sc.w` (43 R317). -/
def execScW (rd rs2 rs1 : Reg) (_aq _rl : BitVec 1) (s : State) : Out :=
  s.storeConditional rd (s.reg rs1) (s.reg rs2)

/-- `amoswap.w` (43 R318). -/
def execAmoswapW (rd rs2 rs1 : Reg) (_aq _rl : BitVec 1) (s : State) : Out :=
  s.amo rd (s.reg rs1) (fun _ => s.reg rs2)

/-- `amoadd.w` (43 R319). -/
def execAmoaddW (rd rs2 rs1 : Reg) (_aq _rl : BitVec 1) (s : State) : Out :=
  s.amo rd (s.reg rs1) (fun t => t + s.reg rs2)

/-- `amoxor.w` (43 R320). -/
def execAmoxorW (rd rs2 rs1 : Reg) (_aq _rl : BitVec 1) (s : State) : Out :=
  s.amo rd (s.reg rs1) (fun t => t ^^^ s.reg rs2)

/-- `amoand.w` (43 R321). -/
def execAmoandW (rd rs2 rs1 : Reg) (_aq _rl : BitVec 1) (s : State) : Out :=
  s.amo rd (s.reg rs1) (fun t => t &&& s.reg rs2)

/-- `amoor.w` (43 R322). -/
def execAmoorW (rd rs2 rs1 : Reg) (_aq _rl : BitVec 1) (s : State) : Out :=
  s.amo rd (s.reg rs1) (fun t => t ||| s.reg rs2)

/-- `amomin.w` (43 R323). -/
def execAmominW (rd rs2 rs1 : Reg) (_aq _rl : BitVec 1) (s : State) : Out :=
  s.amo rd (s.reg rs1) (fun t => minSigned t (s.reg rs2))

/-- `amomax.w` (43 R324). -/
def execAmomaxW (rd rs2 rs1 : Reg) (_aq _rl : BitVec 1) (s : State) : Out :=
  s.amo rd (s.reg rs1) (fun t => maxSigned t (s.reg rs2))

/-- `amominu.w` (43 R325). -/
def execAmominuW (rd rs2 rs1 : Reg) (_aq _rl : BitVec 1) (s : State) : Out :=
  s.amo rd (s.reg rs1) (fun t => minUnsigned t (s.reg rs2))

/-- `amomaxu.w` (43 R326). -/
def execAmomaxuW (rd rs2 rs1 : Reg) (_aq _rl : BitVec 1) (s : State) : Out :=
  s.amo rd (s.reg rs1) (fun t => maxUnsigned t (s.reg rs2))

end Sys2Proof.Machine
end

