-- ==== Sys2Proof/Machine/BaseAlu.lean ====
section
/-! DEFINITION. The register-immediate and register-register instructions of RV32I and the upper immediates (40_rv32i_base.md R201, R202, R219 to R237). -/

namespace Sys2Proof.Machine

/-- `lui` (40 R201). -/
def execLui (rd : Reg) (imm : BitVec 20) (s : State) : Out := s.writeBack rd (upperImm imm) 4#32

/-- `auipc` (40 R202). -/
def execAuipc (rd : Reg) (imm : BitVec 20) (s : State) : Out := s.writeBack rd (s.pc + upperImm imm) 4#32

/-- `addi` (40 R219). -/
def execAddi (rd rs1 : Reg) (imm : BitVec 12) (s : State) : Out := s.writeBack rd (s.reg rs1 + simm imm) 4#32

/-- `slti` (40 R220). -/
def execSlti (rd rs1 : Reg) (imm : BitVec 12) (s : State) : Out :=
  s.writeBack rd (boolWord (ltSigned (s.reg rs1) (simm imm))) 4#32

/-- `sltiu` (40 R221). -/
def execSltiu (rd rs1 : Reg) (imm : BitVec 12) (s : State) : Out :=
  s.writeBack rd (boolWord (ltUnsigned (s.reg rs1) (simm imm))) 4#32

/-- `xori` (40 R222). -/
def execXori (rd rs1 : Reg) (imm : BitVec 12) (s : State) : Out := s.writeBack rd (s.reg rs1 ^^^ simm imm) 4#32

/-- `ori` (40 R223). -/
def execOri (rd rs1 : Reg) (imm : BitVec 12) (s : State) : Out := s.writeBack rd (s.reg rs1 ||| simm imm) 4#32

/-- `andi` (40 R224). -/
def execAndi (rd rs1 : Reg) (imm : BitVec 12) (s : State) : Out := s.writeBack rd (s.reg rs1 &&& simm imm) 4#32

/-- `slli` (40 R225). -/
def execSlli (rd rs1 : Reg) (shamt : BitVec 5) (s : State) : Out :=
  s.writeBack rd (shiftLeft (s.reg rs1) shamt) 4#32

/-- `srli` (40 R226). -/
def execSrli (rd rs1 : Reg) (shamt : BitVec 5) (s : State) : Out :=
  s.writeBack rd (shiftRight (s.reg rs1) shamt) 4#32

/-- `srai` (40 R227). -/
def execSrai (rd rs1 : Reg) (shamt : BitVec 5) (s : State) : Out :=
  s.writeBack rd (shiftRightArith (s.reg rs1) shamt) 4#32

/-- `add` (40 R228). -/
def execAdd (rd rs1 rs2 : Reg) (s : State) : Out := s.writeBack rd (s.reg rs1 + s.reg rs2) 4#32

/-- `sub` (40 R229). -/
def execSub (rd rs1 rs2 : Reg) (s : State) : Out := s.writeBack rd (s.reg rs1 - s.reg rs2) 4#32

/-- `sll` (40 R230). -/
def execSll (rd rs1 rs2 : Reg) (s : State) : Out := s.writeBack rd (shiftLeft (s.reg rs1) (low5 (s.reg rs2))) 4#32

/-- `slt` (40 R231). -/
def execSlt (rd rs1 rs2 : Reg) (s : State) : Out :=
  s.writeBack rd (boolWord (ltSigned (s.reg rs1) (s.reg rs2))) 4#32

/-- `sltu` (40 R232). -/
def execSltu (rd rs1 rs2 : Reg) (s : State) : Out :=
  s.writeBack rd (boolWord (ltUnsigned (s.reg rs1) (s.reg rs2))) 4#32

/-- `xor` (40 R233). -/
def execXor (rd rs1 rs2 : Reg) (s : State) : Out := s.writeBack rd (s.reg rs1 ^^^ s.reg rs2) 4#32

/-- `srl` (40 R234). -/
def execSrl (rd rs1 rs2 : Reg) (s : State) : Out := s.writeBack rd (shiftRight (s.reg rs1) (low5 (s.reg rs2))) 4#32

/-- `sra` (40 R235). -/
def execSra (rd rs1 rs2 : Reg) (s : State) : Out :=
  s.writeBack rd (shiftRightArith (s.reg rs1) (low5 (s.reg rs2))) 4#32

/-- `or` (40 R236). -/
def execOr (rd rs1 rs2 : Reg) (s : State) : Out := s.writeBack rd (s.reg rs1 ||| s.reg rs2) 4#32

/-- `and` (40 R237). -/
def execAnd (rd rs1 rs2 : Reg) (s : State) : Out := s.writeBack rd (s.reg rs1 &&& s.reg rs2) 4#32

end Sys2Proof.Machine
end

