-- ==== Sys2Proof/Machine/BitManip.lean ====
section
/-! DEFINITION. The B extension: Zba, Zbb, Zbs (45_b_bitmanip.md R391 to R419). -/

namespace Sys2Proof.Machine

/-- `sh1add` (45 R391). -/
def execSh1add (rd rs1 rs2 : Reg) (s : State) : Out := s.writeBack rd (s.reg rs2 + ((s.reg rs1) <<< 1)) 4#32

/-- `sh2add` (45 R392). -/
def execSh2add (rd rs1 rs2 : Reg) (s : State) : Out := s.writeBack rd (s.reg rs2 + ((s.reg rs1) <<< 2)) 4#32

/-- `sh3add` (45 R393). -/
def execSh3add (rd rs1 rs2 : Reg) (s : State) : Out := s.writeBack rd (s.reg rs2 + ((s.reg rs1) <<< 3)) 4#32

/-- `andn` (45 R394). -/
def execAndn (rd rs1 rs2 : Reg) (s : State) : Out := s.writeBack rd (s.reg rs1 &&& ~~~(s.reg rs2)) 4#32

/-- `orn` (45 R395). -/
def execOrn (rd rs1 rs2 : Reg) (s : State) : Out := s.writeBack rd (s.reg rs1 ||| ~~~(s.reg rs2)) 4#32

/-- `xnor` (45 R396). -/
def execXnor (rd rs1 rs2 : Reg) (s : State) : Out := s.writeBack rd (~~~(s.reg rs1 ^^^ s.reg rs2)) 4#32

/-- `clz` (45 R397). -/
def execClz (rd rs1 : Reg) (s : State) : Out := s.writeBack rd (BitVec.ofNat 32 (leadingZeros (s.reg rs1))) 4#32

/-- `ctz` (45 R398). -/
def execCtz (rd rs1 : Reg) (s : State) : Out := s.writeBack rd (BitVec.ofNat 32 (trailingZeros (s.reg rs1))) 4#32

/-- `cpop` (45 R399). -/
def execCpop (rd rs1 : Reg) (s : State) : Out := s.writeBack rd (BitVec.ofNat 32 (popCount (s.reg rs1))) 4#32

/-- `max` (45 R400). -/
def execMax (rd rs1 rs2 : Reg) (s : State) : Out := s.writeBack rd (maxSigned (s.reg rs1) (s.reg rs2)) 4#32

/-- `maxu` (45 R401). -/
def execMaxu (rd rs1 rs2 : Reg) (s : State) : Out := s.writeBack rd (maxUnsigned (s.reg rs1) (s.reg rs2)) 4#32

/-- `min` (45 R402). -/
def execMin (rd rs1 rs2 : Reg) (s : State) : Out := s.writeBack rd (minSigned (s.reg rs1) (s.reg rs2)) 4#32

/-- `minu` (45 R403). -/
def execMinu (rd rs1 rs2 : Reg) (s : State) : Out := s.writeBack rd (minUnsigned (s.reg rs1) (s.reg rs2)) 4#32

/-- `sext.b` (45 R404). -/
def execSextB (rd rs1 : Reg) (s : State) : Out := s.writeBack rd (sext8 (s.reg rs1)) 4#32

/-- `sext.h` (45 R405). -/
def execSextH (rd rs1 : Reg) (s : State) : Out := s.writeBack rd (sext16 (s.reg rs1)) 4#32

/-- `zext.h` (45 R406). -/
def execZextH (rd rs1 : Reg) (s : State) : Out := s.writeBack rd (zext16 (s.reg rs1)) 4#32

/-- `rol` (45 R407). -/
def execRol (rd rs1 rs2 : Reg) (s : State) : Out := s.writeBack rd (rotateLeft (s.reg rs1) (low5 (s.reg rs2))) 4#32

/-- `ror` (45 R408). -/
def execRor (rd rs1 rs2 : Reg) (s : State) : Out :=
  s.writeBack rd (rotateRight (s.reg rs1) (low5 (s.reg rs2))) 4#32

/-- `rori` (45 R409). -/
def execRori (rd rs1 : Reg) (shamt : BitVec 5) (s : State) : Out :=
  s.writeBack rd (rotateRight (s.reg rs1) shamt) 4#32

/-- `orc.b` (45 R410). -/
def execOrcB (rd rs1 : Reg) (s : State) : Out := s.writeBack rd (orCombine (s.reg rs1)) 4#32

/-- `rev8` (45 R411). -/
def execRev8 (rd rs1 : Reg) (s : State) : Out := s.writeBack rd (byteReverse (s.reg rs1)) 4#32

/-- `bclr` (45 R412). -/
def execBclr (rd rs1 rs2 : Reg) (s : State) : Out :=
  s.writeBack rd (s.reg rs1 &&& ~~~(oneBit (low5 (s.reg rs2)))) 4#32

/-- `bclri` (45 R413). -/
def execBclri (rd rs1 : Reg) (shamt : BitVec 5) (s : State) : Out :=
  s.writeBack rd (s.reg rs1 &&& ~~~(oneBit shamt)) 4#32

/-- `bext` (45 R414). -/
def execBext (rd rs1 rs2 : Reg) (s : State) : Out :=
  s.writeBack rd (shiftRight (s.reg rs1) (low5 (s.reg rs2)) &&& 1#32) 4#32

/-- `bexti` (45 R415). -/
def execBexti (rd rs1 : Reg) (shamt : BitVec 5) (s : State) : Out :=
  s.writeBack rd (shiftRight (s.reg rs1) shamt &&& 1#32) 4#32

/-- `binv` (45 R416). -/
def execBinv (rd rs1 rs2 : Reg) (s : State) : Out := s.writeBack rd (s.reg rs1 ^^^ oneBit (low5 (s.reg rs2))) 4#32

/-- `binvi` (45 R417). -/
def execBinvi (rd rs1 : Reg) (shamt : BitVec 5) (s : State) : Out :=
  s.writeBack rd (s.reg rs1 ^^^ oneBit shamt) 4#32

/-- `bset` (45 R418). -/
def execBset (rd rs1 rs2 : Reg) (s : State) : Out := s.writeBack rd (s.reg rs1 ||| oneBit (low5 (s.reg rs2))) 4#32

/-- `bseti` (45 R419). -/
def execBseti (rd rs1 : Reg) (shamt : BitVec 5) (s : State) : Out :=
  s.writeBack rd (s.reg rs1 ||| oneBit shamt) 4#32

end Sys2Proof.Machine
end

