-- ==== Sys2Proof/Machine/Branch.lean ====
section
/-! DEFINITION. The jumps and branches of RV32I (40_rv32i_base.md R203 to R210). -/

namespace Sys2Proof.Machine

/-- `jal` (40 R203). -/
def execJal (rd : Reg) (imm : BitVec 21) (s : State) : Out := s.jumpLink rd (s.pc + simm imm) 4#32

/-- `jalr` (40 R204). -/
def execJalr (rd rs1 : Reg) (imm : BitVec 12) (s : State) : Out :=
  s.jumpLink rd (evenTarget (s.reg rs1 + simm imm)) 4#32

/-- `beq` (40 R205). -/
def execBeq (rs1 rs2 : Reg) (imm : BitVec 13) (s : State) : Out :=
  s.branch (s.reg rs1 == s.reg rs2) (simm imm) 4#32

/-- `bne` (40 R206). -/
def execBne (rs1 rs2 : Reg) (imm : BitVec 13) (s : State) : Out :=
  s.branch (s.reg rs1 != s.reg rs2) (simm imm) 4#32

/-- `blt` (40 R207). -/
def execBlt (rs1 rs2 : Reg) (imm : BitVec 13) (s : State) : Out :=
  s.branch (ltSigned (s.reg rs1) (s.reg rs2)) (simm imm) 4#32

/-- `bge` (40 R208). -/
def execBge (rs1 rs2 : Reg) (imm : BitVec 13) (s : State) : Out :=
  s.branch (!ltSigned (s.reg rs1) (s.reg rs2)) (simm imm) 4#32

/-- `bltu` (40 R209). -/
def execBltu (rs1 rs2 : Reg) (imm : BitVec 13) (s : State) : Out :=
  s.branch (ltUnsigned (s.reg rs1) (s.reg rs2)) (simm imm) 4#32

/-- `bgeu` (40 R210). -/
def execBgeu (rs1 rs2 : Reg) (imm : BitVec 13) (s : State) : Out :=
  s.branch (!ltUnsigned (s.reg rs1) (s.reg rs2)) (simm imm) 4#32

end Sys2Proof.Machine
end

