-- ==== Sys2Proof/Machine/Compressed.lean ====
section
/-! DEFINITION. The C extension (44_c_compressed.md R343 to R369). -/

namespace Sys2Proof.Machine

/-- `c.addi4spn` (44 R343). -/
def execCAddi4spn (rd : CReg) (imm : BitVec 10) (s : State) : Out :=
  s.writeBack (creg rd) (s.reg sp + uimm imm) 2#32

/-- `c.lw` (44 R344). -/
def execCLw (rd rs1 : CReg) (imm : BitVec 7) (s : State) : Out :=
  s.loadTo (creg rd) (s.reg (creg rs1) + uimm imm) .word id 2#32

/-- `c.sw` (44 R345). -/
def execCSw (rs2 rs1 : CReg) (imm : BitVec 7) (s : State) : Out :=
  s.storeFrom (s.reg (creg rs1) + uimm imm) .word (s.reg (creg rs2)) 2#32

/-- `c.nop` (44 R346). -/
def execCNop (_imm : BitVec 6) (s : State) : Out := .next (s.advance 2#32)

/-- `c.addi` (44 R347). -/
def execCAddi (rd : Reg) (imm : BitVec 6) (s : State) : Out := s.writeBack rd (s.reg rd + simm imm) 2#32

/-- `c.jal` (44 R348). -/
def execCJal (imm : BitVec 12) (s : State) : Out := s.jumpLink ra (s.pc + simm imm) 2#32

/-- `c.li` (44 R349). -/
def execCLi (rd : Reg) (imm : BitVec 6) (s : State) : Out := s.writeBack rd (simm imm) 2#32

/-- `c.addi16sp` (44 R350). -/
def execCAddi16sp (imm : BitVec 10) (s : State) : Out := s.writeBack sp (s.reg sp + simm imm) 2#32

/-- `c.lui` (44 R351). -/
def execCLui (rd : Reg) (imm : BitVec 6) (s : State) : Out := s.writeBack rd (cLuiImm imm) 2#32

/-- `c.srli` (44 R352). -/
def execCSrli (rd : CReg) (shamt : BitVec 5) (s : State) : Out :=
  s.writeBack (creg rd) (shiftRight (s.reg (creg rd)) shamt) 2#32

/-- `c.srai` (44 R353). -/
def execCSrai (rd : CReg) (shamt : BitVec 5) (s : State) : Out :=
  s.writeBack (creg rd) (shiftRightArith (s.reg (creg rd)) shamt) 2#32

/-- `c.andi` (44 R354). -/
def execCAndi (rd : CReg) (imm : BitVec 6) (s : State) : Out :=
  s.writeBack (creg rd) (s.reg (creg rd) &&& simm imm) 2#32

/-- `c.sub` (44 R355). -/
def execCSub (rd rs2 : CReg) (s : State) : Out := s.writeBack (creg rd) (s.reg (creg rd) - s.reg (creg rs2)) 2#32

/-- `c.xor` (44 R356). -/
def execCXor (rd rs2 : CReg) (s : State) : Out := s.writeBack (creg rd) (s.reg (creg rd) ^^^ s.reg (creg rs2)) 2#32

/-- `c.or` (44 R357). -/
def execCOr (rd rs2 : CReg) (s : State) : Out := s.writeBack (creg rd) (s.reg (creg rd) ||| s.reg (creg rs2)) 2#32

/-- `c.and` (44 R358). -/
def execCAnd (rd rs2 : CReg) (s : State) : Out := s.writeBack (creg rd) (s.reg (creg rd) &&& s.reg (creg rs2)) 2#32

/-- `c.j` (44 R359). -/
def execCJ (imm : BitVec 12) (s : State) : Out := .next (s.setPc (s.pc + simm imm))

/-- `c.beqz` (44 R360). -/
def execCBeqz (rs1 : CReg) (imm : BitVec 9) (s : State) : Out :=
  s.branch (s.reg (creg rs1) == 0#32) (simm imm) 2#32

/-- `c.bnez` (44 R361). -/
def execCBnez (rs1 : CReg) (imm : BitVec 9) (s : State) : Out :=
  s.branch (s.reg (creg rs1) != 0#32) (simm imm) 2#32

/-- `c.slli` (44 R362). -/
def execCSlli (rd : Reg) (shamt : BitVec 5) (s : State) : Out := s.writeBack rd (shiftLeft (s.reg rd) shamt) 2#32

/-- `c.lwsp` (44 R363). -/
def execCLwsp (rd : Reg) (imm : BitVec 8) (s : State) : Out := s.loadTo rd (s.reg sp + uimm imm) .word id 2#32

/-- `c.jr` (44 R364). -/
def execCJr (rs1 : Reg) (s : State) : Out := .next (s.setPc (evenTarget (s.reg rs1)))

/-- `c.mv` (44 R365). -/
def execCMv (rd rs2 : Reg) (s : State) : Out := s.writeBack rd (s.reg rs2) 2#32

/-- `c.ebreak` (44 R366). -/
def execCEbreak (s : State) : Out := s.breakpoint

/-- `c.jalr` (44 R367). -/
def execCJalr (rs1 : Reg) (s : State) : Out := s.jumpLink ra (evenTarget (s.reg rs1)) 2#32

/-- `c.add` (44 R368). -/
def execCAdd (rd rs2 : Reg) (s : State) : Out := s.writeBack rd (s.reg rd + s.reg rs2) 2#32

/-- `c.swsp` (44 R369). -/
def execCSwsp (rs2 : Reg) (imm : BitVec 8) (s : State) : Out :=
  s.storeFrom (s.reg sp + uimm imm) .word (s.reg rs2) 2#32

end Sys2Proof.Machine
end

