-- ==== Sys2Proof/Machine/LoadStore.lean ====
section
/-! DEFINITION. The loads and stores of RV32I (40_rv32i_base.md R211 to R218). -/

namespace Sys2Proof.Machine

/-- `lb` (40 R211). -/
def execLb (rd rs1 : Reg) (imm : BitVec 12) (s : State) : Out :=
  s.loadTo rd (s.reg rs1 + simm imm) .byte sext8 4#32

/-- `lh` (40 R212). -/
def execLh (rd rs1 : Reg) (imm : BitVec 12) (s : State) : Out :=
  s.loadTo rd (s.reg rs1 + simm imm) .half sext16 4#32

/-- `lw` (40 R213). -/
def execLw (rd rs1 : Reg) (imm : BitVec 12) (s : State) : Out := s.loadTo rd (s.reg rs1 + simm imm) .word id 4#32

/-- `lbu` (40 R214). -/
def execLbu (rd rs1 : Reg) (imm : BitVec 12) (s : State) : Out :=
  s.loadTo rd (s.reg rs1 + simm imm) .byte zext8 4#32

/-- `lhu` (40 R215). -/
def execLhu (rd rs1 : Reg) (imm : BitVec 12) (s : State) : Out :=
  s.loadTo rd (s.reg rs1 + simm imm) .half zext16 4#32

/-- `sb` (40 R216). -/
def execSb (rs2 rs1 : Reg) (imm : BitVec 12) (s : State) : Out :=
  s.storeFrom (s.reg rs1 + simm imm) .byte (s.reg rs2) 4#32

/-- `sh` (40 R217). -/
def execSh (rs2 rs1 : Reg) (imm : BitVec 12) (s : State) : Out :=
  s.storeFrom (s.reg rs1 + simm imm) .half (s.reg rs2) 4#32

/-- `sw` (40 R218). -/
def execSw (rs2 rs1 : Reg) (imm : BitVec 12) (s : State) : Out :=
  s.storeFrom (s.reg rs1 + simm imm) .word (s.reg rs2) 4#32

end Sys2Proof.Machine
end

