-- ==== Sys2Proof/Machine/MulDiv.lean ====
section
/-! DEFINITION. The M extension (42_m_muldiv.md R291 to R298). -/

namespace Sys2Proof.Machine

/-- `mul` (42 R291). -/
def execMul (rd rs1 rs2 : Reg) (s : State) : Out := s.writeBack rd (mulLow (s.reg rs1) (s.reg rs2)) 4#32

/-- `mulh` (42 R292). -/
def execMulh (rd rs1 rs2 : Reg) (s : State) : Out := s.writeBack rd (mulHigh (s.reg rs1) (s.reg rs2)) 4#32

/-- `mulhsu` (42 R293). -/
def execMulhsu (rd rs1 rs2 : Reg) (s : State) : Out := s.writeBack rd (mulHighSU (s.reg rs1) (s.reg rs2)) 4#32

/-- `mulhu` (42 R294). -/
def execMulhu (rd rs1 rs2 : Reg) (s : State) : Out := s.writeBack rd (mulHighU (s.reg rs1) (s.reg rs2)) 4#32

/-- `div` (42 R295). -/
def execDiv (rd rs1 rs2 : Reg) (s : State) : Out := s.writeBack rd (divSigned (s.reg rs1) (s.reg rs2)) 4#32

/-- `divu` (42 R296). -/
def execDivu (rd rs1 rs2 : Reg) (s : State) : Out := s.writeBack rd (divUnsigned (s.reg rs1) (s.reg rs2)) 4#32

/-- `rem` (42 R297). -/
def execRem (rd rs1 rs2 : Reg) (s : State) : Out := s.writeBack rd (remSigned (s.reg rs1) (s.reg rs2)) 4#32

/-- `remu` (42 R298). -/
def execRemu (rd rs1 rs2 : Reg) (s : State) : Out := s.writeBack rd (remUnsigned (s.reg rs1) (s.reg rs2)) 4#32

end Sys2Proof.Machine
end

