-- ==== Sys2Proof/Machine/System.lean ====
section
/-! DEFINITION. Fences, environment calls, CSR instructions, `mret` and `wfi` (40_rv32i_base.md R238 to R240, 41_zicsr_system.md R263 to R271). -/

namespace Sys2Proof.Machine

/-- `fence` (40 R238): every field is ignored; outstanding device writes take effect, and every earlier store is visible to
the debug module (20 R121). -/
def execFence (_fm _pred _succ : BitVec 4) (_rs1 _rd : Reg) (s : State) : Out :=
  .next (State.advance { s.drainAll with unseen := [] } 4#32)

/-- `ecall` (40 R239). -/
def execEcall (s : State) : Out := s.raise (if s.priv = .user then .ecallU else .ecallM) 0#32

/-- `ebreak` (40 R240). -/
def execEbreak (s : State) : Out := s.breakpoint

/-- `csrrw` (41 R263). -/
def execCsrrw (rd : Reg) (csr : CsrNum) (rs1 : Reg) (s : State) : Out :=
  s.csrInstr (encI 1#3 0x73#7 rd rs1 csr) rd csr (true) (fun _ => s.reg rs1)

/-- `csrrs` (41 R264). -/
def execCsrrs (rd : Reg) (csr : CsrNum) (rs1 : Reg) (s : State) : Out :=
  s.csrInstr (encI 2#3 0x73#7 rd rs1 csr) rd csr (rs1 != 0#5) (fun t => t ||| s.reg rs1)

/-- `csrrc` (41 R265). -/
def execCsrrc (rd : Reg) (csr : CsrNum) (rs1 : Reg) (s : State) : Out :=
  s.csrInstr (encI 3#3 0x73#7 rd rs1 csr) rd csr (rs1 != 0#5) (fun t => t &&& ~~~(s.reg rs1))

/-- `csrrwi` (41 R266). -/
def execCsrrwi (rd : Reg) (csr : CsrNum) (imm : BitVec 5) (s : State) : Out :=
  s.csrInstr (encI 5#3 0x73#7 rd imm csr) rd csr (true) (fun _ => uimm imm)

/-- `csrrsi` (41 R267). -/
def execCsrrsi (rd : Reg) (csr : CsrNum) (imm : BitVec 5) (s : State) : Out :=
  s.csrInstr (encI 6#3 0x73#7 rd imm csr) rd csr (imm != 0#5) (fun t => t ||| uimm imm)

/-- `csrrci` (41 R268). -/
def execCsrrci (rd : Reg) (csr : CsrNum) (imm : BitVec 5) (s : State) : Out :=
  s.csrInstr (encI 7#3 0x73#7 rd imm csr) rd csr (imm != 0#5) (fun t => t &&& ~~~(uimm imm))

/-- `mret` (41 R269). -/
def execMret (s : State) : Out := if s.priv = .machine then s.trapReturn else s.raise .illegal 0x30200073#32

/-- `wfi` (41 R270): `pc` moves on before the core sleeps (61 R611). -/
def execWfi (s : State) : Out := .next ((s.goToSleep).advance 4#32)

/-- `fence.i` (41 R271): fetch sees every earlier store from here on (20 R126). -/
def execFenceI (_imm : BitVec 12) (_rs1 _rd : Reg) (s : State) : Out :=
  .next (State.advance { s with stale := [] } 4#32)

end Sys2Proof.Machine
end

