-- ==== Sys2Proof/Machine/Xw.lean ====
section
/-! DEFINITION. The XW instructions (46_xw_custom.md R441 to R448): the operations are fixed, operands come from `XW_DECODE`. -/

namespace Sys2Proof.Machine

/-- `c.lbu` (46 R441). -/
def execCLbu (rd rs1 : Reg) (offset : Word) (s : State) : Out := s.loadTo rd (s.reg rs1 + offset) .byte zext8 2#32

/-- `c.lhu` (46 R442). -/
def execCLhu (rd rs1 : Reg) (offset : Word) (s : State) : Out := s.loadTo rd (s.reg rs1 + offset) .half zext16 2#32

/-- `c.sb` (46 R443). -/
def execCSb (rs2 rs1 : Reg) (offset : Word) (s : State) : Out :=
  s.storeFrom (s.reg rs1 + offset) .byte (s.reg rs2) 2#32

/-- `c.sh` (46 R444). -/
def execCSh (rs2 rs1 : Reg) (offset : Word) (s : State) : Out :=
  s.storeFrom (s.reg rs1 + offset) .half (s.reg rs2) 2#32

/-- `c.lbusp` (46 R445). -/
def execCLbusp (rd : Reg) (offset : Word) (s : State) : Out := s.loadTo rd (s.reg sp + offset) .byte zext8 2#32

/-- `c.lhusp` (46 R446). -/
def execCLhusp (rd : Reg) (offset : Word) (s : State) : Out := s.loadTo rd (s.reg sp + offset) .half zext16 2#32

/-- `c.sbsp` (46 R447). -/
def execCSbsp (rs2 : Reg) (offset : Word) (s : State) : Out :=
  s.storeFrom (s.reg sp + offset) .byte (s.reg rs2) 2#32

/-- `c.shsp` (46 R448). -/
def execCShsp (rs2 : Reg) (offset : Word) (s : State) : Out :=
  s.storeFrom (s.reg sp + offset) .half (s.reg rs2) 2#32

end Sys2Proof.Machine
end

