-- ==== Sys2Proof/Machine/Fetch.lean ====
section
/-! DEFINITION. Instruction fetch (20_memory.md R107, R126, R140). -/

namespace Sys2Proof.Machine

/-- The PMP change of the instruction just executed decides this fetch (20 R140): before and after it, execute permission
differs. -/
def State.pmpRelied (s : State) (ys : List Word) : Bool :=
  match s.pmpBefore with
  | none => false
  | some old => !s.isV3A && !s.debugMode && old.allows s.priv .fetch ys != s.pmp.allows s.priv .fetch ys

/-- The two bytes a fetch at `b` delivers (20 R126): those of memory, or, where stores have written since the last
`fence.i`, the bytes before the newest few of those stores, a free choice (log 25). -/
def State.fetchBytes (s : State) (b : Word) : (Option Byte × Option Byte) × State :=
  let as := [b.toNat, (b + 1#32).toNat]
  let n := storesOver s.stale as
  let m := Memory.rewind s.mem s.stale as (Config.freeNat s.draws % (n + 1))
  if n = 0 then ((s.byteAt b, s.byteAt (b + 1#32)), s)
  else ((Memory.get m b.toNat, Memory.get m (b + 1#32).toNat), s.drawn)

/-- `FetchParcel` (20 R107). A named register of the core's own devices is no code: an instruction access fault (DEDUCED,
log 50); an address there that no table names is refused (20 R114, 92 D33). -/
def State.fetchParcel (s : State) (b : Word) : Except Stop (Half × State) :=
  let ys := Width.half.addrs b
  if s.pmpRelied ys then .error (.refused (.pmpNextFetch b))
  else if !s.pmpOk .fetch ys then .error (.exn .instrAccess b)
  else
    match s.target ys with
    | .device =>
      match devRegAt s.cfg (wordAddr b) with
      | none => .error (.refused (.deviceUnnamed b))
      | some _ => .error (.exn .instrAccess b)
    | .nothing => .error (.exn .instrAccess b)
    | .platform => .error (.refused (.platformDevice b))
    | .rom | .ram =>
      match s.fetchBytes b with
      | ((some b0, some b1), s1) => .ok (parcel b0 b1, s1)
      | ((none, _), _) => .error (.fault (.unwrittenMemory b))
      | ((some _, none), _) => .error (.fault (.unwrittenMemory (b + 1#32)))

/-- `Fetch(pc)` (20 R107). -/
def State.fetch (s : State) : Except Stop (Fetched × State) :=
  match s.fetchParcel s.pc with
  | .error e => .error e
  | .ok (p0, s1) =>
    if Half.isLong p0 then
      match s1.fetchParcel (s.pc + 2#32) with
      | .error e => .error e
      | .ok (p1, s2) => .ok (.full (joinParcels p0 p1), s2)
    else .ok (.half p0, s1)

end Sys2Proof.Machine
end

