-- ==== Sys2Proof/Machine/Debug.lean ====
section
/-! DEFINITION. The debug module (61_systick_sleep_debug.md R620 to R632): its registers as the debug host sees them, the
abstract commands, the program buffer, resume. What completes the field tables from the debug standard is PRESUMED (log 37). -/

namespace Sys2Proof.Machine

/-- `dmstatus` (61 R623). Bits 13 and 12, unavailable, read 1 while ndmreset holds the system in reset: no file says what
sets them (PRESUMED, log 37). -/
def State.dmstatus (s : State) : Word :=
  let both (b : Bool) (lo : Nat) : Word := flagAt b lo ||| flagAt b (lo + 1)
  both s.dm.havereset 18 ||| both s.dm.resumeack 16 ||| both s.dm.ndmreset 12 |||
    both (!s.debugMode && !s.dm.ndmreset) 10 ||| both s.debugMode 8 ||| 0x82#32

/-- `hartinfo` (61 R624). -/
def hartinfoOf (c : Config) : Word := 0x00312000#32 ||| c.dataAddr.setWidth 32

/-- `abstractcs` (61 R625). -/
def DebugModule.abstractcs (d : DebugModule) : Word :=
  0x08000002#32 ||| flagAt d.running 12 ||| fieldAt 32 d.cmderr 8

/-- The bits of `dmcontrol` with a stated read value (61 R622): ndmreset and dmactive; resumereq and the reserved bits read 0.
`State.dmcontrolRead` adds the others. -/
def DebugModule.dmcontrol (d : DebugModule) : Word := flagAt d.ndmreset 1 ||| flagAt d.dmactive 0

/-- Record an error; the first one is kept until it is cleared. -/
def State.cmdError (s : State) (e : BitVec 3) : State :=
  { s with dm := { s.dm with cmderr := if s.dm.cmderr = 0#3 then e else s.dm.cmderr } }

/-- Start the program buffer (61 R630). -/
def State.startProgbuf (s : State) : State :=
  { s with pc := s.cfg.progbufBase, dm := { s.dm with running := true } }

/-- `postexec` (61 R626, R627). -/
def State.postExec (s : State) : State := if s.dm.command.getLsbD 18 then s.startProgbuf else s

/-- `aarpostincrement` (61 R626): the next register number in `command`. -/
def State.regnoUp (s : State) : State :=
  if s.dm.command.getLsbD 19 then
    { s with
      dm :=
        { s.dm with
          command := (s.dm.command &&& 0xFFFF0000#32) ||| (s.dm.command.extractLsb' 0 16 + 1#16).setWidth 32 } }
  else s

/-- The word a register command moves: the whole word at 32 bits, a free one at 8 or 16 bits, where the rule is silent
(61 R626). -/
def State.sizedWord (s : State) (v : Word) : Word :=
  if s.dm.command.extractLsb' 20 3 = 2#3 then v else Config.freeWord s.draws

/-- The draw of `sizedWord`, if it takes one. -/
def State.sizedDraw (s : State) : State := if s.dm.command.extractLsb' 20 3 = 2#3 then s else s.drawn

/-- The transfer of a register command (61 R626): the CSRs below 0x1000, x0 to x31 from 0x1000. A number from 0x1020 on sets
`cmderr` 2, the code for a command that is not supported: R626 and 93 U73 name none. A transfer that fails ends the command: it
neither increments `regno` nor runs the program buffer, of which R626 does not speak (PRESUMED, log 37). -/
def State.transferRegister (s : State) : Except Stop State :=
  let regno := s.dm.command.extractLsb' 0 16
  let write := s.dm.command.getLsbD 16
  if regno.toNat < 0x1000 then
    let a : CsrNum := regno.extractLsb' 0 12
    match s.csrCheck a write with
    | .illegal => .ok (s.cmdError 3#3)
    | .refused r => .error (.refused r)
    | .ok =>
      if write then
        match s.sizedDraw.csrWrite a (s.sizedWord s.dm.data0) with
        | .ok s1 => .ok s1.regnoUp.postExec
        | .error r => .error (.refused r)
      else
        .ok (State.postExec (State.regnoUp
          { s.sizedDraw with dm := { s.dm with data0 := s.sizedWord (s.csrRead a) } }))
  else if regno.toNat < 0x1020 then
    let i : Reg := regno.extractLsb' 0 5
    if write then .ok (s.sizedDraw.setReg i (s.sizedWord s.dm.data0)).regnoUp.postExec
    else
      .ok (State.postExec (State.regnoUp { s.sizedDraw with dm := { s.dm with data0 := s.sizedWord (s.reg i) } }))
  else .ok (s.cmdError 2#3)

/-- A register access command on a halted core (61 R626). Its size is looked at only where `transfer` asks for the access: no
file says what an unsupported size does without one, and a size that is refused runs no program buffer (PRESUMED, log 37). -/
def State.registerCommand (s : State) : Except Stop State :=
  if s.dm.command.getLsbD 17 then
    if 2 < (s.dm.command.extractLsb' 20 3).toNat then .ok (s.cmdError 2#3) else s.transferRegister
  else .ok s.postExec

/-- The width of `aamsize` (61 R627). -/
def memoryWidth (b : BitVec 3) : Option Width :=
  match b with
  | 0#3 => some .byte
  | 1#3 => some .half
  | 2#3 => some .word
  | _ => none

/-- `aampostincrement` (61 R627): the address moves on after a success. -/
def State.addressUp (s : State) (w : Width) : State :=
  if s.dm.command.getLsbD 19 then
    { s with dm := { s.dm with data1 := s.dm.data1 + BitVec.ofNat 32 w.size } }
  else s

/-- A failed memory access of the debug module: a bus error is `cmderr` 101, a misaligned one an exception; either ends the
command without its `postexec` (PRESUMED, log 37). A write that asks for a system reset ends it there (DESIGN CHOICE, log 55). -/
def State.memoryError (s : State) : Stop → Except Stop State
  | .exn .loadAccess _ => .ok (s.cmdError 5#3)
  | .exn .storeAccess _ => .ok (s.cmdError 5#3)
  | .exn _ _ => .ok (s.cmdError 3#3)
  | .restart s1 => .ok s1
  | e => .error e

/-- A write by an agent other than the hart breaks a reservation on its block (43 R312). -/
def State.agentBreaks (s : State) (a : Word) : State :=
  match s.reservation with
  | none => s
  | some r => if s.sameGranule r a then { s with reservation := none } else s

/-- The value a memory write command stores (61 R627): `data0`, or its OR or AND with the old word. -/
def memoryValue (mode : BitVec 2) (old data : Word) : Word :=
  match mode with
  | 2#2 => old ||| data
  | 3#2 => old &&& data
  | _ => data

/-- The debug module has seen all but the newest `n` of the hart's stores to these bytes. -/
def State.agentSees (s : State) (as : List Nat) (n : Nat) : State := { s with unseen := leaveUnseen s.unseen as n }

/-- A read by the debug module (20 R121 item 2): it may miss the newest few of the hart's stores to these bytes since the last
`fence`, a free choice (log 43). One of a device register comes after the hart's outstanding device writes, which take effect
first: 20 R124 orders the hart's own accesses, and R122 leaves the time of the writes open (DESIGN CHOICE, log 52). -/
def State.agentLoad (s : State) (a : Word) (w : Width) : Except Stop (Word × State) :=
  let as := (w.addrs a).map BitVec.toNat
  let n := storesOver s.unseen as
  if n = 0 then s.load a w
  else
    let k := Config.freeNat s.draws % (n + 1)
    match State.load { s with mem := Memory.rewind s.mem s.unseen as k } a w with
    | .ok (v, s1) => .ok (v, State.agentSees { s1.drawn with mem := s.mem } as k)
    | .error e => .error e

/-- The write of a memory command; it lands after the hart's earlier stores to these bytes (log 43). Every device write
outstanding takes effect with it, the hart's earlier ones among them, one of the times that 20 R122 leaves open (DESIGN CHOICE,
log 52). -/
def State.memoryStore (s : State) (w : Width) (v : Word) : Except Stop State :=
  match s.store s.dm.data1 w v with
  | .ok s1 =>
    .ok
      (((s1.drainAll.agentBreaks s.dm.data1).agentSees ((w.addrs s.dm.data1).map BitVec.toNat) 0).addressUp w).postExec
  | .error e => s.memoryError e

/-- A memory access command on a halted core, V3B/C (61 R627). -/
def State.memoryCommand (s : State) : Except Stop State :=
  let c := s.dm.command
  let mode := c.extractLsb' 14 2
  match memoryWidth (c.extractLsb' 20 3) with
  | none => .ok (s.cmdError 2#3)
  | some w =>
    if c.getLsbD 16 then
      if mode.getLsbD 1 then
        if w = .word then
          match s.agentLoad s.dm.data1 .word with
          | .ok (old, s1) => s1.memoryStore .word (memoryValue mode old s.dm.data0)
          | .error e => s.memoryError e
        else .ok (s.cmdError 2#3)
      else s.memoryStore w s.dm.data0
    else
      match s.agentLoad s.dm.data1 w with
      | .ok (v, s1) => .ok (State.postExec (State.addressUp { s1 with dm := { s1.dm with data0 := v } } w))
      | .error e => s.memoryError e

/-- Execute the abstract command in `command` (61 R626, R627). Of the two errors that R626 lists and does not order, an
unsupported kind, `cmdtype` 2 on V3A among them, counts before a running core: `cmderr` 2, not 4 (PRESUMED, log 37). -/
def State.runCommand (s : State) : Except Stop State :=
  let kind := s.dm.command.extractLsb' 24 8
  if s.dm.cmderr ≠ 0#3 then .ok s
  else if kind = 0#8 then (if s.debugMode then s.registerCommand else .ok (s.cmdError 4#3))
  else if kind = 2#8 ∧ ¬s.isV3A then (if s.debugMode then s.memoryCommand else .ok (s.cmdError 4#3))
  else .ok (s.cmdError 2#3)

/-- The command runs again after an access of `data<k>` that `abstractauto` names (61 R628). -/
def State.autoData (s : State) (k : Nat) : Except Stop State := if s.dm.autoData.getLsbD k then s.runCommand else .ok s

/-- The command runs again after an access of `progbuf<k>` that `abstractauto` names (61 R628). -/
def State.autoProgbuf (s : State) (k : Nat) : Except Stop State :=
  if s.dm.autoProgbuf.getLsbD k then s.runCommand else .ok s

/-- Leave debug mode (61 R632): `pc` from `dpc`, the mode from `dcsr.prv`. -/
def State.resume (s : State) : Except Stop State :=
  if s.dbg.dpc.getLsbD 0 then .error (.refused .oddDpc)
  else
    .ok
      { s with
        pc := s.dbg.dpc
        priv := s.dbg.dcsr.prv
        debugMode := false
        dm := { s.dm with resumeack := true, running := false } }

/-- The fields of `dmcontrol` that a write stores (61 R622). -/
def State.dmcontrolFields (s : State) (v : Word) : State :=
  { s with
    dm :=
      { s.dm with
        dmactive := true
        haltreq := v.getLsbD 31
        ndmreset := v.getLsbD 1
        havereset := s.dm.havereset && !v.getLsbD 28
        resumeack := s.dm.resumeack && !v.getLsbD 30 } }

/-- Write `dmcontrol` (61 R622, 70 R652): dmactive 0 resets the module, and leaves a halted core halted, of which no file speaks
(PRESUMED, log 37); ndmreset 1 resets the system and holds it, 0 lets it go; resumereq resumes a halted core. An ackhavereset
written with ndmreset 1 comes before the reset, so `havereset` is 1 after the write: 70 R652 does not order the two (DESIGN
CHOICE, log 49). Beside haltreq, or while the program buffer runs, a resumereq clears resumeack and does nothing else: the table
does not say what it does then (PRESUMED, log 37). -/
def State.writeDmcontrol (s : State) (v : Word) : Except Stop State :=
  if !v.getLsbD 0 then .ok { s with dm := DebugModule.reset }
  else
    let s1 := s.dmcontrolFields v
    if v.getLsbD 1 then .ok { s1.systemReset with dm := { s1.dm with havereset := true, running := false } }
    else if s.dm.ndmreset then .ok s1.leaveReset
    else if v.getLsbD 30 && s.debugMode && !v.getLsbD 31 && !s.dm.running then s1.resume
    else .ok s1

/-- The number of a program buffer register, if the address names one (61 R620). -/
def progbufIndex (a : BitVec 7) : Option (Fin 8) :=
  if a.extractLsb' 3 4 = 4#4 then some ⟨(a.extractLsb' 0 3).toNat, by have := (a.extractLsb' 0 3).isLt; omega⟩ else none

/-- The registers that must not be touched while a command runs (61 R625, cmderr 001): written, or also read. -/
def busyGuarded (a : BitVec 7) (write : Bool) : Bool :=
  a == 0x04#7 || a == 0x05#7 || (progbufIndex a).isSome || (write && (a == 0x16#7 || a == 0x17#7 || a == 0x18#7))

/-- The debug host writes a debug-module register (61 R620 to R629). A write of `command` while `cmderr` is not 0 is ignored;
the bits of `abstractauto` that name no register of V3 are not held and read 0; a write to an address that Table 7-1 does not
list is dropped, as one of a read-only register is (PRESUMED, log 37). -/
def State.dmiWrite (s : State) (a : BitVec 7) (v : Word) : Except Stop State :=
  if a = 0x10#7 then s.writeDmcontrol v
  else if !s.dm.dmactive then .ok s
  else if s.dm.running && busyGuarded a true then .ok (s.cmdError 1#3)
  else
    match progbufIndex a with
    | some k => State.autoProgbuf { s with dm := { s.dm with progbuf := s.dm.progbuf.set k.val v k.isLt } } k.val
    | none =>
      if a = 0x04#7 then State.autoData { s with dm := { s.dm with data0 := v } } 0
      else if a = 0x05#7 then State.autoData { s with dm := { s.dm with data1 := v } } 1
      else if a = 0x16#7 then .ok { s with dm := { s.dm with cmderr := s.dm.cmderr &&& ~~~(v.extractLsb' 8 3) } }
      else if a = 0x17#7 then
        (if s.dm.cmderr ≠ 0#3 then .ok s else State.runCommand { s with dm := { s.dm with command := v } })
      else if a = 0x18#7 then
        .ok
          { s with
            dm := { s.dm with autoProgbuf := v.extractLsb' 16 16 &&& 0xFF#16, autoData := v.extractLsb' 0 12 &&& 3#12 } }
      else .ok s

/-- `dmcontrol` as it reads (61 R622): haltreq is write-only (00 R11) and ackhavereset acts when written, so both read free
values (log 35). -/
def State.dmcontrolRead (s : State) : Word := s.dm.dmcontrol ||| (Config.freeWord s.draws &&& 0x90000000#32)

/-- Reading this debug-module register takes a free value: `dmcontrol`, and `command`, which is write-only. -/
def dmiReadDraws (a : BitVec 7) : Bool := a == 0x10#7 || a == 0x17#7

/-- The value of a debug-module register (61 R620). An address that Table 7-1 does not list reads 0, of which the rule says
nothing (PRESUMED, log 37). -/
def State.dmiValue (s : State) (a : BitVec 7) : Word :=
  match progbufIndex a with
  | some k => s.dm.progbuf[k]
  | none =>
    match a with
    | 0x04#7 => s.dm.data0
    | 0x05#7 => s.dm.data1
    | 0x10#7 => s.dmcontrolRead
    | 0x11#7 => s.dmstatus
    | 0x12#7 => hartinfoOf s.cfg
    | 0x16#7 => s.dm.abstractcs
    | 0x17#7 => Config.freeWord s.draws
    | 0x18#7 => fieldAt 32 s.dm.autoProgbuf 16 ||| fieldAt 32 s.dm.autoData 0
    | 0x40#7 => flagAt s.debugMode 0
    | _ => 0#32

/-- The debug host reads a debug-module register; the value stands in `reply`. While a command runs a data or program buffer
register reads a free value, which 61 R625 leaves open (log 35). -/
def State.dmiRead (s : State) (a : BitVec 7) : Except Stop State :=
  if s.dm.running && busyGuarded a false then
    .ok (State.cmdError { s.drawn with dm := { s.dm with reply := Config.freeWord s.draws } } 1#3)
  else
    let s1 : State := { s with dm := { s.dm with reply := s.dmiValue a }, draws := if dmiReadDraws a then s.draws + 1 else s.draws }
    match progbufIndex a with
    | some k => s1.autoProgbuf k.val
    | none => if a = 0x04#7 then s1.autoData 0 else if a = 0x05#7 then s1.autoData 1 else .ok s1

/-! ## Running the program buffer (61 R630) -/

/-- Parcel `h` of the program buffer, two to a register. -/
def DebugModule.progbufParcel (d : DebugModule) (h : Nat) : Option Half :=
  if hh : h < 16 then some ((d.progbuf[h / 2]'(by omega)).extractLsb' (16 * (h % 2)) 16) else none

/-- The instruction bits at `pc` in the program buffer; none off its end. -/
def State.progbufFetch (s : State) : Option Fetched :=
  let h := (s.pc - s.cfg.progbufBase).toNat / 2
  match s.dm.progbufParcel h with
  | none => none
  | some p0 =>
    if Half.isLong p0 then (s.dm.progbufParcel (h + 1)).map (fun p1 => .full (joinParcels p0 p1)) else some (.half p0)

/-- One instruction of the program buffer: `dret` (41 R272) resumes, an undecodable word is an exception on V3A. -/
def State.progbufStep (s : State) : Out :=
  match s.progbufFetch with
  | none => .refused .progbufEnd
  | some f =>
    if f.bits = 0x7B200073#32 then
      match s.resume with
      | .ok s1 => .next s1
      | .error e => s.stop e
    else
      match decode s.cfg f with
      | .instr i => exec i s
      | .illegal => .next s.progbufFail
      | .unknown | .short => .refused (.unknownEncoding f.bits)

end Sys2Proof.Machine
end

