-- ==== Sys2Proof/Machine/Boundary.lean ====
section
/-! DEFINITION. What happens between two instructions (60_exceptions.md R512, R513; 92_eei_decisions.md D29): the inputs of
the outside world, the chores, the wake-up of a sleeping core, the interrupt taken. -/

namespace Sys2Proof.Machine

/-- Apply one input (INVENTORY, Host interface). While ndmreset holds the system in reset (70 R652) only the debug host and
power-on act. -/
def State.applyAct (s : State) (act : Act) : Except Stop State :=
  match act with
  | .chore .tick => .ok (if s.dm.ndmreset then s else s.tick)
  | .chore .drain => .ok (if s.dm.ndmreset then s else s.drainOne)
  | .line n => .ok (if s.dm.ndmreset || !(n == 2#8 || decide (16 ≤ n.toNat)) then s else s.setPending (irqBit n))
  | .event => .ok (if s.dm.ndmreset then s else { s with eventPending := true })
  | .agentWrite a b =>
    .ok
      (if s.dm.ndmreset || s.targetAt a != .ram then s
        else ((s.setBytes [a] [b]).agentBreaks a).agentSees [a.toNat] 0)
  | .dmiWrite a v => if s.cfg.debuggerPresent then s.dmiWrite a v else .ok s
  | .dmiRead a => if s.cfg.debuggerPresent then s.dmiRead a else .ok s
  | .powerOn => .ok s.powerOnReset

/-- Apply inputs in order. -/
def State.applyActs (s : State) : List Act → Except Stop State
  | [] => .ok s
  | a :: rest =>
    match s.applyAct a with
    | .ok s1 => s1.applyActs rest
    | .error e => .error e

/-- Nothing would happen on its own: SysTick is stopped and no device write is outstanding. -/
def State.quiet (s : State) : Bool := !s.stk.ste && s.deviceQueue.isEmpty

/-- The boundary's inputs and choices: the next entry of `env`; with none left, the free choices, which are looked at only
where something can happen (log 21). -/
def State.boundary (s : State) : Boundary :=
  match s.env with
  | b :: _ => b
  | [] =>
    { acts := if s.quiet then [] else (Config.freeSched s.draws).chores.map Act.chore
      defer := (Config.freeSched s.draws).defer
      wake := (Config.freeSched s.draws).wake }

/-- The boundary is used up: the next entry of `env` and the next draw stand for the next one. -/
def State.passBoundary (s : State) : State := { s with env := s.env.tail, draws := s.draws + 1 }

/-- What the boundary leaves to do. -/
inductive Turn where
  /-- the step ends here: halted, asleep, held in reset, or stopped -/
  | done (o : Out)
  /-- the program buffer goes on -/
  | progbuf (s : State)
  /-- an interrupt is taken -/
  | interrupt (n : IrqNum) (s : State)
  /-- the next instruction runs -/
  | run (s : State)

/-- A debug halt request is obeyed: not twice, and not in deep sleep (61 R611, R616, R631). -/
def State.obeysHalt (s : State) : Bool :=
  s.dm.haltreq && !(s.sleep.isSome && s.pfic.sleepdeep)

/-- The instruction at `pc` is a breakpoint instruction that `dcsr` sends to debug mode. -/
def State.ebreakNext (s : State) : Bool :=
  s.ebreakHalts &&
    match s.fetch with
    | .ok (f, _) =>
      match decode s.cfg f with
      | .instr .ebreak | .instr .cEbreak => true
      | _ => false
    | .error _ => false

/-- Obey a halt request. Of the causes that stand at one boundary the highest counts (10 R57): a trigger with ACTION = 1 at
`pc` is refused (61 R634), a breakpoint instruction there gives cause 1, the request itself 3 (DEDUCED, log 51). A sleeping
core runs no instruction. The look at `pc` sets two draws aside for the fetch. -/
def State.obeyHalt (s : State) : Out :=
  if s.sleep.isSome then .next (s.enterDebug 3#3 s.pc)
  else
    match s.triggered .fetch s.pc with
    | .refused r => .refused r
    | .fire => .next (s.enterDebug 3#3 s.pc)
    | .pass => .next (State.enterDebug { s with draws := s.draws + 2 } (if s.ebreakNext then 1#3 else 3#3) s.pc)

/-- How a sleeping core goes on (61 R611 to R615). -/
inductive Wake where
  /-- it stays asleep -/
  | sleep
  /-- it wakes by an interrupt, whose handler runs first if it is eligible -/
  | byInterrupt
  /-- it wakes and goes on after the `wfi` -/
  | goesOn
deriving DecidableEq, Repr

/-- The wake-up condition of a sleeping core. `free` is a free choice: of 92 D15 without a cause; of the cause that counts
where an event and an interrupt stand together, which 61 R613 does not order (DEDUCED, log 23). -/
def State.wakeUp (s : State) (k : SleepKind) (free : Bool) : Wake :=
  if s.wakeInterrupt then (if k = .wfe ∧ s.eventPending ∧ free then .goesOn else .byInterrupt)
  else if k = .wfe ∧ s.eventPending then .goesOn
  else if free then .goesOn
  else .sleep

/-- The core is awake; the event that woke a WFE is used up (61 R614). -/
def State.awake (s : State) (k : SleepKind) (w : Wake) : State :=
  { s with
    sleep := none
    eventPending := if k = .wfe ∧ w = .goesOn then false else s.eventPending }

/-- An awake core at its boundary (60 R513 steps 3 on): an eligible interrupt is taken unless it is delayed (`defer`) or
single-stepping blocks it (61 R632). -/
def State.awakeTurn (s : State) (defer : Bool) : Turn :=
  match s.selectInterrupt with
  | none => .run s
  | some n =>
    if s.dbg.dcsr.step && !s.dbg.dcsr.stepie then .run s
    else if defer then .run s
    else .interrupt n s

/-- The turn of the core after the inputs (60 R513, steps 0 to 3). EXC pending as if by software is refused (60 R557). -/
def State.turn (s : State) (b : Boundary) : Turn :=
  if s.dm.ndmreset then .done (.next s)
  else if s.debugMode then (if s.dm.running then .progbuf s else .done (.next s))
  else if s.obeysHalt then .done s.obeyHalt
  else if s.pending 3#8 then .done (.refused .softwarePendedExc)
  else
    match s.sleep with
    | none => s.awakeTurn b.defer
    | some k =>
      match s.wakeUp k b.wake with
      | .sleep => .done (.next s)
      | .byInterrupt => (s.awake k .byInterrupt).awakeTurn false
      | .goesOn => (s.awake k .goesOn).awakeTurn b.defer

/-- The whole boundary: inputs, then the core's turn. -/
def State.atBoundary (s : State) : Turn :=
  match s.passBoundary.applyActs s.boundary.acts with
  | .ok s1 => s1.turn s.boundary
  | .error (.fault f) => .done (.fault f)
  | .error (.refused r) => .done (.refused r)
  | .error (.restart s1) => .done (.next s1)
  | .error (.exn e info) => .done (s.raise e info)

/-- Run the next instruction (60 R513, steps 4 to 7). -/
def State.runInstr (s : State) : Out :=
  match s.triggered .fetch s.pc with
  | .refused r => .refused r
  | .fire => s.raise .breakpoint s.pc
  | .pass =>
    match s.fetch with
    | .error e => s.pmpSettled.stop e
    | .ok (f, s1) =>
      match decode s.cfg f with
      | .instr i => exec i s1.pmpSettled
      | .illegal => s1.pmpSettled.raise .illegal f.bits
      | .unknown | .short => .refused (.unknownEncoding f.bits)

/-- With `dcsr.step` set the core re-enters debug mode after one instruction or one trap entry (61 R632); a halt request
that stands then has the higher priority (61 R631). -/
def afterStep : Out → Out
  | .next s =>
    .next (if s.dbg.dcsr.step && !s.debugMode then s.enterDebug (if s.dm.haltreq then 3#3 else 4#3) s.pc else s)
  | o => o

end Sys2Proof.Machine
end

