-- ==== Sys2Proof/Machine/Step.lean ====
section
/-! DEFINITION. One step of the machine (60_exceptions.md R513), and where the host places an instruction to be run. -/

namespace Sys2Proof.Machine

/-- One step: the boundary, then at most one instruction or one interrupt entry. -/
def step (s : State) : Host.Outcome State Fault Refusal :=
  match s.atBoundary with
  | .done o => o
  | .progbuf s1 => s1.progbufStep
  | .interrupt n s1 => afterStep (s1.takeInterrupt n)
  | .run s1 => afterStep s1.runInstr

/-- The state with an instruction's bytes at `pc` (log 40). Fetch delivers them, so the stores to their addresses that it may
still miss are dropped; if the word is a row of another member only, the member is the first that has it (30 R159). -/
def State.withFetchWord (s : State) (nbits w : Nat) : State :=
  let bs := Word.bytes (BitVec.ofNat 32 (w % 2 ^ nbits))
  let has (v : Variant) : Bool :=
    match decodeBytes { s.cfg with variant := v } bs with
    | .instr _ => true
    | _ => false
  let v := if has s.cfg.variant then s.cfg.variant else if has .v3a then .v3a else if has .v3b then .v3b else s.cfg.variant
  let as := Width.word.addrs s.pc
  { s with
    cfg := { s.cfg with variant := v }
    mem := Memory.setAll s.mem as bs
    stale := storesElsewhere s.stale (as.map BitVec.toNat) }

end Sys2Proof.Machine
end

