-- ==== Sys2Proof/Safety.lean ====
section
/-! DEFINITION. The terms the statements use: what an instruction changes and leaves alone, when an access succeeds, and the
properties of a state that every step keeps. -/

namespace Sys2Proof.Machine

/-! ## Effects -/

/-- Everything but the general registers and the pc is the same. -/
def SameButRegs (s t : State) : Prop := t = { s with regs := t.regs, pc := t.pc }

/-- Every byte of memory reads as before. -/
def SameBytes (s t : State) : Prop := ∀ a : Word, t.byteAt a = s.byteAt a

/-- Every general register but `rd` reads as before. -/
def SameRegsBut (s t : State) (rd : Reg) : Prop := ∀ j : Reg, j ≠ rd → t.reg j = s.reg j

/-- `rd` reads the result, or 0 if it is x0 (10 R21). -/
def Holds (t : State) (rd : Reg) (v : Word) : Prop := t.reg rd = if rd = 0#5 then 0#32 else v

/-- The whole effect of an instruction that writes one register: the result in `rd` (discarded for x0), the next pc, every
other register, every byte of memory and all other state as before. -/
structure RegEffect (s t : State) (rd : Reg) (v : Word) (next : Word) : Prop where
  result : Holds t rd v
  others : SameRegsBut s t rd
  pc : t.pc = next
  memory : SameBytes s t
  rest : SameButRegs s t

/-- The instruction completes with exactly that effect. -/
def Writes (i : Instr) (s : State) (rd : Reg) (v : Word) (next : Word) : Prop :=
  ∃ t, exec i s = .next t ∧ RegEffect s t rd v next

/-- The instruction completes and changes only the pc. -/
def OnlyMovesTo (i : Instr) (s : State) (next : Word) : Prop :=
  ∃ t, exec i s = .next t ∧ t.pc = next ∧ (∀ j, t.reg j = s.reg j) ∧ SameBytes s t ∧ t = { s with pc := next }

/-- The bytes at the addresses of an access are these, in rising order. -/
def BytesAre (s : State) (as : List Word) (bs : List Byte) : Prop := s.bytesAt as = .ok bs

/-- An aligned load from RAM or ROM that PMP and the triggers let through, of bytes that hold values. -/
structure Loadable (s : State) (a : Word) (w : Width) (bs : List Byte) : Prop where
  aligned : w.aligned a = true
  memory : s.target (w.addrs a) = .ram ∨ s.target (w.addrs a) = .rom
  allowed : s.pmpOk .load (w.addrs a) = true
  quiet : s.triggered .load a = .pass
  bytes : BytesAre s (w.addrs a) bs

/-- An aligned store to RAM that PMP and the triggers let through. -/
structure Storable (s : State) (a : Word) (w : Width) : Prop where
  aligned : w.aligned a = true
  memory : s.target (w.addrs a) = .ram
  allowed : s.pmpOk .store (w.addrs a) = true
  quiet : s.triggered .store a = .pass

/-- Memory after a store: the stored bytes at the addresses of the access, every other byte as before. -/
structure StoredAt (s t : State) (a : Word) (w : Width) (v : Word) : Prop where
  stored : BytesAre t (w.addrs a) (w.bytes v)
  others : ∀ b : Word, b ∉ w.addrs a → t.byteAt b = s.byteAt b

/-- Everything but registers, pc, memory bytes, the records of stores that fetch or the debug module may miss, the reservation
and the draw counter is the same. -/
def SameButStore (s t : State) : Prop :=
  t =
    { s with
      regs := t.regs
      pc := t.pc
      mem := t.mem
      stale := t.stale
      unseen := t.unseen
      reservation := t.reservation
      draws := t.draws }

/-- The reservation after a store: as before, or gone if the store is to its block (43 R312). -/
def ReservationMay (s t : State) (a : Word) : Prop :=
  t.reservation = s.reservation ∨ (t.reservation = none ∧ ∃ r, s.reservation = some r ∧ s.sameGranule r a = true)

/-- A store instruction completes: the bytes land at `a`, no register changes. -/
def Stores (i : Instr) (s : State) (a : Word) (w : Width) (v : Word) (next : Word) : Prop :=
  ∃ t, exec i s = .next t ∧ StoredAt s t a w v ∧ (∀ j, t.reg j = s.reg j) ∧ t.pc = next ∧ SameButStore s t ∧
    ReservationMay s t a

/-- A word of a rule's encoding decodes to the rule's instruction, of which something holds (30 R160, 40 R200). -/
def Encodes (s : State) (w pattern mask : Word) (i : Instr) (holds : Instr → Prop) : Prop :=
  w &&& mask = pattern → decode s.cfg (.full w) = .instr i ∧ holds i

/-- A row with this many 1 bits in its mask has more of them than every row of `XW_DECODE` that the parcel matches, and so comes
first (30 R156). V3A has no XW rows. -/
def KeepsParcel (c : Config) (p : Half) (n : Nat) : Prop :=
  c.variant.isV3A = true ∨ ∀ row ∈ c.xw, p &&& row.mask = row.pattern → maskOnes row.mask < n

/-- The same for a parcel, which decodes to the rule's instruction where the rule's mask has more 1 bits than that of every
supplied row it matches. -/
def Encodes16 (s : State) (p pattern mask : Half) (i : Instr) (holds : Instr → Prop) : Prop :=
  p &&& mask = pattern → (KeepsParcel s.cfg p (maskOnes mask) → decode s.cfg (.half p) = .instr i) ∧ holds i

/-- A word of a rule's encoding computes a value into `rd`; the pc moves on by 4. -/
def Computes (s : State) (w pattern mask : Word) (i : Instr) (rd : Reg) (v : Word) : Prop :=
  Encodes s w pattern mask i (fun i => Writes i s rd v (s.pc + 4#32))

/-- A parcel of a rule's encoding computes a value into `rd`; the pc moves on by 2. -/
def Computes16 (s : State) (p pattern mask : Half) (i : Instr) (rd : Reg) (v : Word) : Prop :=
  Encodes16 s p pattern mask i (fun i => Writes i s rd v (s.pc + 2#32))

/-- No parcel of this encoding is an instruction of the table (30 R158). -/
def Reserved (s : State) (p pattern mask : Half) : Prop :=
  p &&& mask = pattern → s.cfg.xw = [] → ∀ i, decode s.cfg (.half p) ≠ .instr i

/-- Bits 31 to 20 of a word: `imm_I` (30 R152). -/
def bitsI (w : Word) : BitVec 12 := w.extractLsb' 20 12

/-- `imm_B` from its bits (30 R152): bits 31, 7, 30 to 25, 11 to 8, and a zero. -/
def bitsB (w : Word) : BitVec 13 :=
  (w.extractLsb' 31 1 ++ w.extractLsb' 7 1 ++ w.extractLsb' 25 6 ++ w.extractLsb' 8 4 ++ 0#1).setWidth 13

/-- `imm_J` from its bits (30 R152): bits 31, 19 to 12, 20, 30 to 21, and a zero. -/
def bitsJ (w : Word) : BitVec 21 :=
  (w.extractLsb' 31 1 ++ w.extractLsb' 12 8 ++ w.extractLsb' 20 1 ++ w.extractLsb' 21 10 ++ 0#1).setWidth 21

/-- `imm_S` from its bits (30 R152): bits 31 to 25 and 11 to 7. -/
def bitsS (w : Word) : BitVec 12 := (w.extractLsb' 25 7 ++ w.extractLsb' 7 5).setWidth 12

/-- The offset of `c.lw` and `c.sw` from its bits (30 R155): bits 5, 12 to 10, 6, and two zeros. -/
def bitsLw (p : Half) : BitVec 7 :=
  (p.extractLsb' 5 1 ++ p.extractLsb' 10 3 ++ p.extractLsb' 6 1 ++ 0#2).setWidth 7

/-- The offset of `c.j` and `c.jal` from its bits (30 R155): bits 12, 8, 10 to 9, 6, 7, 2, 11, 5 to 3, and a zero. -/
def bitsCJ (p : Half) : BitVec 12 :=
  (p.extractLsb' 12 1 ++ p.extractLsb' 8 1 ++ p.extractLsb' 9 2 ++ p.extractLsb' 6 1 ++ p.extractLsb' 7 1 ++
    p.extractLsb' 2 1 ++ p.extractLsb' 11 1 ++ p.extractLsb' 3 3 ++ 0#1).setWidth 12

/-- The offset of `c.beqz` and `c.bnez` from its bits (30 R155): bits 12, 6 to 5, 2, 11 to 10, 4 to 3, and a zero. -/
def bitsCB (p : Half) : BitVec 9 :=
  (p.extractLsb' 12 1 ++ p.extractLsb' 5 2 ++ p.extractLsb' 2 1 ++ p.extractLsb' 10 2 ++ p.extractLsb' 3 2 ++ 0#1).setWidth 9

/-- The 6-bit immediate of the CI and CB formats (30 R155): bits 12 and 6 to 2. -/
def bits6 (p : Half) : BitVec 6 := (p.extractLsb' 12 1 ++ p.extractLsb' 2 5).setWidth 6

/-- The register of a 3-bit field: 8 plus the field (44 R341). -/
def shortReg (f : CReg) : Reg := 8#5 + f.setWidth 5

/-! ## Fetch -/

/-- Fetch delivers this parcel: two bytes of RAM or ROM that PMP lets execute, no store to them still unseen by fetch, no
reliance on a PMP change just made (20 R107, R126, R140). -/
structure ParcelReady (s : State) (b : Word) (p : Half) : Prop where
  settled : s.pmpRelied [b, b + 1#32] = false
  allowed : s.pmpOk .fetch [b, b + 1#32] = true
  memory : s.target [b, b + 1#32] = .ram ∨ s.target [b, b + 1#32] = .rom
  seen : ∀ o ∈ s.stale, ∀ e ∈ o, e.1 ≠ b.toNat ∧ e.1 ≠ (b + 1#32).toNat
  low : s.byteAt b = some (p.extractLsb' 0 8)
  high : s.byteAt (b + 1#32) = some (p.extractLsb' 8 8)

/-- Fetch at `pc` delivers these instruction bits: one parcel, or two with the low half first (20 R101, R107). -/
def FetchReady (s : State) : Fetched → Prop
  | .half p => p.extractLsb' 0 2 ≠ 3#2 ∧ ParcelReady s s.pc p
  | .full w =>
    w.extractLsb' 0 2 = 3#2 ∧ ParcelReady s s.pc (w.extractLsb' 0 16) ∧ ParcelReady s (s.pc + 2#32) (w.extractLsb' 16 16)

/-! ## Traps -/

/-- The trap target that `mtvec` gives for a number (60 R524 steps 2 to 4): the base; the entry of the table; or the word
that stands there, read from memory that a machine-mode load may read. -/
def TargetIs (s : State) (vec : IrqNum) (target : Word) : Prop :=
  let base : Word := (s.csr.mtvec.base ++ 0#10).setWidth 32
  let slot : Word := base + 4#32 * vec.setWidth 32
  let bytes : List Word := [slot, slot + 1#32, slot + 2#32, slot + 3#32]
  (s.csr.mtvec.mode0 = false ∧ s.csr.mtvec.mode1 = false ∧ target = base) ∨
    (s.csr.mtvec.mode0 = true ∧ s.csr.mtvec.mode1 = false ∧ target = slot) ∨
      (s.csr.mtvec.mode0 = true ∧ s.csr.mtvec.mode1 = true ∧ target.getLsbD 0 = false ∧
        (s.target bytes = .ram ∨ s.target bytes = .rom) ∧ (s.isV3A = true ∨ s.pmp.allows .machine .load bytes = true) ∧
          s.bytesAt bytes = .ok (Width.word.bytes target))

/-- A level source asserts its request (61 R606, R607): SysTick while STIE and CNTIF, the software interrupt while SWIE, on
V3B/C. -/
def SourceAsserts (s : State) (n : IrqNum) : Prop :=
  s.isV3A = false ∧ ((n = 12#8 ∧ s.stk.stie = true ∧ s.stk.cntif = true) ∨ (n = 14#8 ∧ s.stk.swie = true))

/-- Entry to a trap, in the terms of 60 R520 to R524: the saved registers, the mode, the active trap with its frame, the
target; no register and no byte of memory changes, and nothing else. -/
structure TrapTaken (s t : State) (kind : Bool) (code : Word) (actidx : IrqNum) (info epc target : Word) : Prop where
  cause : t.csr.mcause = (if kind then 0x80000000#32 else 0#32) ||| code
  epc : t.csr.mepc = epc
  value : t.csr.mtval = info
  mpie : t.csr.mstatus.mpie = s.csr.mstatus.mie
  mpp : t.csr.mstatus.mpp = s.priv
  mie : t.csr.mstatus.mie = if s.lastLevel ≤ s.level + 1 then false else s.csr.mstatus.mie
  priv : t.priv = .machine
  nest : t.nest = ⟨actidx, s.hpeEnabled, s.trapCsrs⟩ :: s.nest
  frame : t.hpe = if s.hpeEnabled then s.hpe.setIfInBounds s.level s.hpeFrame else s.hpe
  pc : t.pc = target
  regs : ∀ j, t.reg j = s.reg j
  memory : SameBytes s t
  reservation : t.reservation = none
  exception : kind = false → t.pfic = s.pfic ∧ t.eventPending = s.eventPending
  rest :
    t =
      { s with
        csr :=
          { s.csr with
            mstatus := t.csr.mstatus
            mepc := t.csr.mepc
            mcause := t.csr.mcause
            mtval := t.csr.mtval }
        priv := t.priv
        nest := t.nest
        hpe := t.hpe
        pc := t.pc
        reservation := t.reservation
        pmpBefore := none
        draws := t.draws
        pfic := { s.pfic with pend := t.pfic.pend }
        eventPending := t.eventPending }

/-- No device write is outstanding, the nesting level leaves room for one more trap, no VTF channel names the number, the
core is not in debug mode. -/
structure TrapReady (s : State) (vec : IrqNum) : Prop where
  drained : s.deviceQueue = []
  room : s.level < 2
  noVtf : s.vtfMatches vec = []
  running : s.debugMode = false

/-- The vector number of an exception (60 R503): 3 on V3A; on V3B/C the environment calls and breakpoints have their own. -/
def vectorOf (v3a : Bool) (code : Word) : IrqNum :=
  if v3a then 3#8
  else if code = 11#32 then 5#8
  else if code = 8#32 then 8#8
  else if code = 3#32 then 9#8
  else 3#8

/-- An outcome is the entry of the exception `code` of the instruction at `pc` (60 R520, R522). -/
def TakesException (s : State) (o : Out) (code info target : Word) : Prop :=
  ∃ t, o = .next t ∧ TrapTaken s t false code 3#8 info s.pc target

/-- Ready to take the exception `code`, whose entry is at `target`. -/
def ExceptionReady (s : State) (code target : Word) : Prop :=
  TrapReady s (vectorOf s.isV3A code) ∧ TargetIs s (vectorOf s.isV3A code) target

/-! ## Interrupts -/

/-- Number `n` belongs to the set `C` of 60 R563: programmable, pending, enabled, above the threshold, not active, and
nothing runs or it preempts what runs. -/
def Eligible (s : State) (n : IrqNum) : Prop :=
  (n = 12#8 ∨ n = 14#8 ∨ 16 ≤ n.toNat) ∧ s.pfic.pend.getLsbD n.toNat = true ∧ s.enables.getLsbD n.toNat = true ∧
    (s.pfic.threshold = 0#8 ∨ (s.prioOf n).toNat < s.pfic.threshold.toNat) ∧ (∀ e ∈ s.nest, e.actidx ≠ n) ∧
      (s.nest = [] ∨
        (s.nestingOn = true ∧ s.level < 2 ∧
          ∃ e rest, s.nest = e :: rest ∧ (e.actidx = 12#8 ∨ e.actidx = 14#8 ∨ 16 ≤ e.actidx.toNat) ∧
            s.preemption n < s.preemption e.actidx))

/-- What keeps a step from running the instruction at `pc`, ruled out: no input arrives, nothing happens on its own, the core
is awake and not halted, no interrupt is eligible, no trigger matches. -/
structure Undisturbed (s : State) : Prop where
  env : s.env = []
  quiet : s.quiet = true
  notHeld : s.dm.ndmreset = false
  notHalted : s.debugMode = false
  noHaltRequest : s.dm.haltreq = false
  awake : s.sleep = none
  noExc : s.pending 3#8 = false
  noInterrupt : s.selectInterrupt = none
  noTrigger : s.triggered .fetch s.pc = .pass

/-! ## Overflow, triggers, reset -/

/-- Entry to the overflow state from level 2 (60 R537): a trap entry without a frame, NEST_OV set, NEST_STA 0b0111. -/
structure Overflowed (s t : State) (cause : Word) (actidx : IrqNum) (info target : Word) : Prop where
  pc : t.pc = target
  mcause : t.csr.mcause = cause
  mepc : t.csr.mepc = s.pc
  mtval : t.csr.mtval = info
  priv : t.priv = .machine
  mpp : t.csr.mstatus.mpp = s.priv
  mpie : t.csr.mstatus.mpie = s.csr.mstatus.mie
  mie : t.csr.mstatus.mie = false
  frame : t.hpe = s.hpe
  nest : t.nest = ⟨actidx, false, s.trapCsrs⟩ :: s.nest
  nestOv : (t.csrRead 0xBC1#12).getLsbD 30 = true
  nestSta : (t.csrRead 0xBC1#12).extractLsb' 8 4 = 7#4
  regs : ∀ j, t.reg j = s.reg j
  memory : SameBytes s t

/-- A channel watches accesses of this kind in this mode: its M or U, and its EXECUTE, LOAD or STORE, is 1 (61 R634). -/
def ChannelWatches (c : TriggerChannel) (p : Priv) (k : AccessKind) : Prop :=
  (p = .machine → c.m = true) ∧ (p = .user → c.u = true) ∧ (k = .fetch → c.execute = true) ∧ (k = .load → c.load = true) ∧
    (k = .store → c.store = true)

/-- The value meets the channel's `tdata2` (61 R634): equal, or, with MATCH 1, equal above the lowest 0 bit of `tdata2`. -/
def ChannelHits (c : TriggerChannel) (v : Word) : Prop :=
  (c.range = false ∧ v = c.tdata2) ∨
    (c.range = true ∧ ∃ n < 32, c.tdata2.getLsbD n = false ∧ (∀ j < n, c.tdata2.getLsbD j = true) ∧
      ∀ j, n < j → v.getLsbD j = c.tdata2.getLsbD j)

/-- A trigger fires on the value, and every one that does has ACTION 0 (61 R634): V3B/C, outside debug mode; no watching
channel has MATCH 1 with a `tdata2` of all ones, which is refused. -/
def TriggerFires (s : State) (k : AccessKind) (v : Word) : Prop :=
  s.isV3A = false ∧ s.debugMode = false ∧
    (∃ i : Fin 4, ChannelWatches s.trig.channel[i] s.priv k ∧ ChannelHits s.trig.channel[i] v) ∧
      ∀ i : Fin 4, ChannelWatches s.trig.channel[i] s.priv k →
        (s.trig.channel[i].range = true → s.trig.channel[i].tdata2 ≠ 0xFFFFFFFF#32) ∧
          (ChannelHits s.trig.channel[i] v → s.trig.channel[i].action = false)

/-- The core's registers as 10 R70 gives them after reset, with the PMP and trigger enables and what the core remembers of
traps, sleep, stores and device writes. -/
structure CoreIsReset (t : State) : Prop where
  priv : t.priv = .machine
  csr : t.csr = Csrs.reset
  pmp : ∀ k : Fin 4, t.pmp.cfg[k] = Pmp.reset.cfg[k]
  triggers :
    ∀ k : Fin 4,
      t.trig.channel[k] = ⟨false, false, false, false, false, false, false, t.trig.channel[k].tdata2⟩
  debug : t.dbg = DebugCsrs.reset
  nest : t.nest = []
  reservation : t.reservation = none
  awake : t.sleep = none
  event : t.eventPending = false
  running : t.debugMode = false
  outstanding : t.deviceQueue = [] ∧ t.stale = [] ∧ t.unseen = [] ∧ t.pmpBefore = none

/-- The interrupt controller's fields with a stated reset value (60 R541, R544 to R549, R555, R556): all 0; of a VTF address
register that is bit 0, on V3A the whole word. -/
structure PficIsReset (t : State) : Prop where
  en : t.pfic.en = 0#256
  pend : t.pfic.pend = 0#256
  prio : ∀ n : IrqNum, t.prioOf n = 0#8
  threshold : t.pfic.threshold = 0#8
  vtfBase : t.pfic.vtfBase = 0#4
  cfgr : t.pfic.nestCtrl = false ∧ t.pfic.hwstkCtrl = false
  vtfId : ∀ k : Fin 4, t.pfic.vtfId[k] = 0#8
  vtfAddr : ∀ k : Fin 4, t.pfic.vtfAddr[k].getLsbD 0 = false ∧ (t.isV3A = true → t.pfic.vtfAddr[k] = 0#32)
  sctlr : t.pfic.sevonpend = false ∧ t.pfic.wfitowfe = false ∧ t.pfic.sleepdeep = false ∧ t.pfic.sleeponexit = false

/-- SysTick's control and status fields after reset (61 R600 to R602): all 0. -/
structure TimerIsReset (t : State) : Prop where
  mode : t.stk.mode = false
  stre : t.stk.stre = false
  stclk : t.stk.stclk = false
  stie : t.stk.stie = false
  ste : t.stk.ste = false
  swie : t.stk.swie = false
  cntif : t.stk.cntif = false

/-! ## Control and status registers -/

/-- The access check of 41 R262 turns the instruction away with an illegal instruction exception, steps 1 to 5. -/
def CsrDenied (s : State) (a : CsrNum) (writes : Bool) : Prop :=
  (s.isV3A = true → a ∉ [0x800#12, 0x804#12, 0xBC0#12, 0xBC1#12]) ∧
    (s.csrImplemented a = false ∨ (a ∈ [0x7B0#12, 0x7B1#12, 0x7B2#12, 0x7B3#12] ∧ s.debugMode = false) ∨
      (s.priv = .user ∧ a.extractLsb' 8 2 ≠ 0#2) ∨ (writes = true ∧ a.extractLsb' 10 2 = 3#2) ∨
        (a = 0x804#12 ∧ s.priv = .user ∧ s.csr.intsyscr.lock = true))

/-- The access check of 41 R262 lets the instruction through: implemented, a debug register only in debug mode, a mode high
enough, no write of a read-only number, `intsyscr` in user mode only while unlocked, no write of a trigger outside debug
mode. -/
def CsrAllowed (s : State) (a : CsrNum) (writes : Bool) : Prop :=
  s.csrImplemented a = true ∧ (a ∈ [0x7B0#12, 0x7B1#12, 0x7B2#12, 0x7B3#12] → s.debugMode = true) ∧
    (s.priv = .user → a.extractLsb' 8 2 = 0#2) ∧ (writes = true → a.extractLsb' 10 2 ≠ 3#2) ∧
      (a = 0x804#12 → s.priv = .user → s.csr.intsyscr.lock = false) ∧
        (writes = true → a ∈ [0x7A1#12, 0x7A2#12] → s.debugMode = true)

/-- A CSR instruction that the check lets through completes: the old value in `rd`, the new value written by the register's
own rule if it writes, the pc on by 4 (41 R261, R273). A write of a reserved FETCH_MODE, bit 1 of `corecfgr`, is refused
(10 R62, 92 D9). -/
def CsrCompletes (s : State) (rd : Reg) (a : CsrNum) (writes : Bool) (v : Word) (i : Instr) : Prop :=
  CsrAllowed s a writes →
    (writes = true ∧ a = 0xBC0#12 ∧ v.getLsbD 1 = true → exec i s = .refused .reservedFetchMode) ∧
      (¬(writes = true ∧ a = 0xBC0#12 ∧ v.getLsbD 1 = true) →
        ∃ u t, (if writes then s.csrWrite a v = .ok u else u = s) ∧ exec i s = .next t ∧ Holds t rd (s.csrRead a) ∧
          SameRegsBut s t rd ∧ t.pc = s.pc + 4#32 ∧ SameBytes s t ∧ SameButRegs u t)

/-! ## Atomics and device registers -/

/-- A read-modify-write: the old word in `rd`, the new word at `a`, every other register and byte as before (43 section 3). -/
def Atomically (s : State) (rd : Reg) (a old new : Word) (i : Instr) : Prop :=
  ∃ t, exec i s = .next t ∧ Holds t rd old ∧ SameRegsBut s t rd ∧ t.pc = s.pc + 4#32 ∧ StoredAt s t a .word new ∧
    SameButStore s t ∧ ReservationMay s t a

/-- The bytes of a misaligned access under `MISALIGNED_POLICY = split` are each accessible (20 R104 step 1). -/
structure SplitReady (s : State) (k : AccessKind) (a : Word) (w : Width) : Prop where
  policy : s.cfg.misaligned = .split
  misaligned : w.aligned a = false
  quiet : s.triggered k a = .pass
  bytes : ∀ b ∈ w.addrs a, (s.target [b] = .ram ∨ (k = .load ∧ s.target [b] = .rom)) ∧ s.pmpOk k [b] = true

/-- A word access that may reach a device register: no earlier device write outstanding, PMP and the triggers let it
through. -/
structure DeviceReady (s : State) (k : AccessKind) (a : Word) (w : Width) : Prop where
  drained : s.deviceQueue = []
  allowed : s.pmpOk k (w.addrs a) = true
  quiet : s.triggered k a = .pass

/-! ## Return from a trap -/

/-- Return from a trap, in the terms of 60 R526 and R528, with at most two levels active: the pc, the mode and MIE come back,
MPIE and MPP are as 92 D47 leaves them, the innermost trap is popped with its frame, the trap CSRs of an outer handler are
as R528 leaves them, GIHWSTKNEN clears on V3B/C, and the core may go to sleep (61 R616). -/
structure TrapReturned (s t : State) : Prop where
  pc : t.pc = s.csr.mepc
  priv : t.priv = s.csr.mstatus.mpp
  mie : t.csr.mstatus.mie = s.csr.mstatus.mpie
  nest : t.nest = s.nest.tail
  popped :
    s.hpeEnabled = true → ∀ e rest frame, s.nest = e :: rest → s.hpe[s.level - 1]? = some frame →
      (∀ k : Fin 16, t.reg hpeRegs[k] = frame[k]) ∧ ∀ j, (∀ k : Fin 16, hpeRegs[k] ≠ j) → t.reg j = s.reg j
  kept : s.hpeEnabled = false ∨ s.nest = [] → ∀ j, t.reg j = s.reg j
  single :
    s.level ≤ 1 →
      t.csr.mepc = s.csr.mepc ∧ t.csr.mcause = s.csr.mcause ∧ t.csr.mtval = s.csr.mtval ∧
        (t.csr.mstatus.mpie = s.csr.mstatus.mpie ∨ t.csr.mstatus.mpie = true) ∧
          (t.csr.mstatus.mpp = s.csr.mstatus.mpp ∨ t.csr.mstatus.mpp = .user)
  outer :
    ∀ e rest, s.nest = e :: rest → rest ≠ [] →
      (t.csr.mepc = s.csr.mepc ∨ t.csr.mepc = e.outer.mepc) ∧ (t.csr.mcause = s.csr.mcause ∨ t.csr.mcause = e.outer.mcause) ∧
        (t.csr.mtval = s.csr.mtval ∨ t.csr.mtval = e.outer.mtval) ∧
          (t.csr.mstatus.mpie = s.csr.mstatus.mpie ∨ t.csr.mstatus.mpie = true ∨ t.csr.mstatus.mpie = e.outer.mpie) ∧
            (t.csr.mstatus.mpp = s.csr.mstatus.mpp ∨ t.csr.mstatus.mpp = .user ∨ t.csr.mstatus.mpp = e.outer.mpp)
  gate : t.csr.intsyscr.gihwstknen = if s.isV3A then s.csr.intsyscr.gihwstknen else false
  sleep : t.sleep = if s.level = 1 ∧ s.pfic.sleeponexit = true ∧ s.debugMode = false then some .wfi else s.sleep
  reservation : t.reservation = none
  memory : SameBytes s t
  rest :
    t =
      { s with
        regs := t.regs
        pc := t.pc
        priv := t.priv
        csr :=
          { s.csr with
            mstatus := t.csr.mstatus
            mepc := t.csr.mepc
            mcause := t.csr.mcause
            mtval := t.csr.mtval
            intsyscr := { s.csr.intsyscr with gihwstknen := t.csr.intsyscr.gihwstknen } }
        nest := t.nest
        sleep := t.sleep
        reservation := t.reservation
        draws := t.draws }

/-! ## Where an instruction stores -/

/-- The address and the width of what an instruction stores, from the registers before it; none for one that stores nothing
(40 R216 to R218, 43 R317 to R326, 44 R345, R369, 46 R443 to R448). -/
def storesTo (s : State) : Instr → Option (Word × Width)
  | .lui .. => none
  | .auipc .. => none
  | .jal .. => none
  | .jalr .. => none
  | .beq .. => none
  | .bne .. => none
  | .blt .. => none
  | .bge .. => none
  | .bltu .. => none
  | .bgeu .. => none
  | .lb .. => none
  | .lh .. => none
  | .lw .. => none
  | .lbu .. => none
  | .lhu .. => none
  | .sb _ rs1 imm => some (s.reg rs1 + simm imm, .byte)
  | .sh _ rs1 imm => some (s.reg rs1 + simm imm, .half)
  | .sw _ rs1 imm => some (s.reg rs1 + simm imm, .word)
  | .addi .. => none
  | .slti .. => none
  | .sltiu .. => none
  | .xori .. => none
  | .ori .. => none
  | .andi .. => none
  | .slli .. => none
  | .srli .. => none
  | .srai .. => none
  | .add .. => none
  | .sub .. => none
  | .sll .. => none
  | .slt .. => none
  | .sltu .. => none
  | .xor .. => none
  | .srl .. => none
  | .sra .. => none
  | .or .. => none
  | .and .. => none
  | .fence .. => none
  | .ecall => none
  | .ebreak => none
  | .csrrw .. => none
  | .csrrs .. => none
  | .csrrc .. => none
  | .csrrwi .. => none
  | .csrrsi .. => none
  | .csrrci .. => none
  | .mret => none
  | .wfi => none
  | .fenceI .. => none
  | .mul .. => none
  | .mulh .. => none
  | .mulhsu .. => none
  | .mulhu .. => none
  | .div .. => none
  | .divu .. => none
  | .rem .. => none
  | .remu .. => none
  | .lrW .. => none
  | .scW _ _ rs1 _ _ => some (s.reg rs1, .word)
  | .amoswapW _ _ rs1 _ _ => some (s.reg rs1, .word)
  | .amoaddW _ _ rs1 _ _ => some (s.reg rs1, .word)
  | .amoxorW _ _ rs1 _ _ => some (s.reg rs1, .word)
  | .amoandW _ _ rs1 _ _ => some (s.reg rs1, .word)
  | .amoorW _ _ rs1 _ _ => some (s.reg rs1, .word)
  | .amominW _ _ rs1 _ _ => some (s.reg rs1, .word)
  | .amomaxW _ _ rs1 _ _ => some (s.reg rs1, .word)
  | .amominuW _ _ rs1 _ _ => some (s.reg rs1, .word)
  | .amomaxuW _ _ rs1 _ _ => some (s.reg rs1, .word)
  | .cAddi4spn .. => none
  | .cLw .. => none
  | .cSw _ rs1 imm => some (s.reg (creg rs1) + uimm imm, .word)
  | .cNop .. => none
  | .cAddi .. => none
  | .cJal .. => none
  | .cLi .. => none
  | .cAddi16sp .. => none
  | .cLui .. => none
  | .cSrli .. => none
  | .cSrai .. => none
  | .cAndi .. => none
  | .cSub .. => none
  | .cXor .. => none
  | .cOr .. => none
  | .cAnd .. => none
  | .cJ .. => none
  | .cBeqz .. => none
  | .cBnez .. => none
  | .cSlli .. => none
  | .cLwsp .. => none
  | .cJr .. => none
  | .cMv .. => none
  | .cEbreak => none
  | .cJalr .. => none
  | .cAdd .. => none
  | .cSwsp _ imm => some (s.reg sp + uimm imm, .word)
  | .sh1add .. => none
  | .sh2add .. => none
  | .sh3add .. => none
  | .andn .. => none
  | .orn .. => none
  | .xnor .. => none
  | .clz .. => none
  | .ctz .. => none
  | .cpop .. => none
  | .max .. => none
  | .maxu .. => none
  | .min .. => none
  | .minu .. => none
  | .sextB .. => none
  | .sextH .. => none
  | .zextH .. => none
  | .rol .. => none
  | .ror .. => none
  | .rori .. => none
  | .orcB .. => none
  | .rev8 .. => none
  | .bclr .. => none
  | .bclri .. => none
  | .bext .. => none
  | .bexti .. => none
  | .binv .. => none
  | .binvi .. => none
  | .bset .. => none
  | .bseti .. => none
  | .cLbu .. => none
  | .cLhu .. => none
  | .cSb _ rs1 offset => some (s.reg rs1 + offset, .byte)
  | .cSh _ rs1 offset => some (s.reg rs1 + offset, .half)
  | .cLbusp .. => none
  | .cLhusp .. => none
  | .cSbsp _ offset => some (s.reg sp + offset, .byte)
  | .cShsp _ offset => some (s.reg sp + offset, .half)

/-- The address and the width of what a load or `lr.w` reads, from the registers before it; none for every other instruction
(40 R211 to R215, 43 R316, 44 R344, R363, 46 R441 to R446). The AMOs stand in `storesTo`. -/
def loadsFrom (s : State) : Instr → Option (Word × Width)
  | .lui .. => none
  | .auipc .. => none
  | .jal .. => none
  | .jalr .. => none
  | .beq .. => none
  | .bne .. => none
  | .blt .. => none
  | .bge .. => none
  | .bltu .. => none
  | .bgeu .. => none
  | .lb _ rs1 imm => some (s.reg rs1 + simm imm, .byte)
  | .lh _ rs1 imm => some (s.reg rs1 + simm imm, .half)
  | .lw _ rs1 imm => some (s.reg rs1 + simm imm, .word)
  | .lbu _ rs1 imm => some (s.reg rs1 + simm imm, .byte)
  | .lhu _ rs1 imm => some (s.reg rs1 + simm imm, .half)
  | .sb .. => none
  | .sh .. => none
  | .sw .. => none
  | .addi .. => none
  | .slti .. => none
  | .sltiu .. => none
  | .xori .. => none
  | .ori .. => none
  | .andi .. => none
  | .slli .. => none
  | .srli .. => none
  | .srai .. => none
  | .add .. => none
  | .sub .. => none
  | .sll .. => none
  | .slt .. => none
  | .sltu .. => none
  | .xor .. => none
  | .srl .. => none
  | .sra .. => none
  | .or .. => none
  | .and .. => none
  | .fence .. => none
  | .ecall => none
  | .ebreak => none
  | .csrrw .. => none
  | .csrrs .. => none
  | .csrrc .. => none
  | .csrrwi .. => none
  | .csrrsi .. => none
  | .csrrci .. => none
  | .mret => none
  | .wfi => none
  | .fenceI .. => none
  | .mul .. => none
  | .mulh .. => none
  | .mulhsu .. => none
  | .mulhu .. => none
  | .div .. => none
  | .divu .. => none
  | .rem .. => none
  | .remu .. => none
  | .lrW _ rs1 _ _ => some (s.reg rs1, .word)
  | .scW .. => none
  | .amoswapW .. => none
  | .amoaddW .. => none
  | .amoxorW .. => none
  | .amoandW .. => none
  | .amoorW .. => none
  | .amominW .. => none
  | .amomaxW .. => none
  | .amominuW .. => none
  | .amomaxuW .. => none
  | .cAddi4spn .. => none
  | .cLw _ rs1 imm => some (s.reg (creg rs1) + uimm imm, .word)
  | .cSw .. => none
  | .cNop .. => none
  | .cAddi .. => none
  | .cJal .. => none
  | .cLi .. => none
  | .cAddi16sp .. => none
  | .cLui .. => none
  | .cSrli .. => none
  | .cSrai .. => none
  | .cAndi .. => none
  | .cSub .. => none
  | .cXor .. => none
  | .cOr .. => none
  | .cAnd .. => none
  | .cJ .. => none
  | .cBeqz .. => none
  | .cBnez .. => none
  | .cSlli .. => none
  | .cLwsp _ imm => some (s.reg sp + uimm imm, .word)
  | .cJr .. => none
  | .cMv .. => none
  | .cEbreak => none
  | .cJalr .. => none
  | .cAdd .. => none
  | .cSwsp .. => none
  | .sh1add .. => none
  | .sh2add .. => none
  | .sh3add .. => none
  | .andn .. => none
  | .orn .. => none
  | .xnor .. => none
  | .clz .. => none
  | .ctz .. => none
  | .cpop .. => none
  | .max .. => none
  | .maxu .. => none
  | .min .. => none
  | .minu .. => none
  | .sextB .. => none
  | .sextH .. => none
  | .zextH .. => none
  | .rol .. => none
  | .ror .. => none
  | .rori .. => none
  | .orcB .. => none
  | .rev8 .. => none
  | .bclr .. => none
  | .bclri .. => none
  | .bext .. => none
  | .bexti .. => none
  | .binv .. => none
  | .binvi .. => none
  | .bset .. => none
  | .bseti .. => none
  | .cLbu _ rs1 offset => some (s.reg rs1 + offset, .byte)
  | .cLhu _ rs1 offset => some (s.reg rs1 + offset, .half)
  | .cSb .. => none
  | .cSh .. => none
  | .cLbusp _ offset => some (s.reg sp + offset, .byte)
  | .cLhusp _ offset => some (s.reg sp + offset, .half)
  | .cSbsp .. => none
  | .cShsp .. => none

/-! ## Properties every step keeps -/

/-- The parameters that become addresses are even. -/
def ConfigEven (c : Config) : Prop := c.resetPc.getLsbD 0 = false ∧ c.progbufBase.getLsbD 0 = false

/-- `pc[0]` is 0 (10 R27). -/
def PcEven (s : State) : Prop := ConfigEven s.cfg ∧ s.pc.getLsbD 0 = false

/-- At most two levels, three in the overflow state, which V3A does not have (10 R31, 60 R537). -/
def LevelBound (s : State) : Prop := s.level ≤ 3 ∧ (s.isV3A = true → s.level ≤ 2)

/-- The enable and pending bits of numbers that do not have them read 0 (60 R557, 92 D51). -/
def ReservedClear (p : Pfic) : Prop := p.en &&& ~~~programmableMask = 0#256 ∧ p.pend &&& ~~~pendableMask = 0#256

/-- The controller keeps those bits 0. -/
def ReservedIrqsZero (s : State) : Prop := ReservedClear s.pfic

/-- No PMP region holds the reserved combination R = 0, W = 1 (20 R138). -/
def PmpLegal (s : State) : Prop := ∀ i : Fin 4, s.pmp.cfg[i].w = true → s.pmp.cfg[i].r = true

/-- The form that every state keeps: memory canonical, the nesting level bounded, the reserved interrupt bits 0, every PMP
region's permissions legal. -/
structure StateForm (s : State) : Prop where
  memory : Memory.wf s.mem = true
  level : LevelBound s
  irqs : ReservedIrqsZero s
  pmp : PmpLegal s

end Sys2Proof.Machine
end

