-- ==== Sys2Proof/Certificates/Slice0/Obligations.lean ====
section
/-! DEFINITION. The statements for the provers, in the order of OBLIGATIONS.json. A statement about words or parcels says of
every word of a rule's encoding that it decodes to the rule's instruction and what that instruction does. -/

open Sys2Proof Sys2Proof.Machine

/-- The eleven instructions that compute from a register or the pc and an immediate (40 R201, R202, R219 to R227): upper
immediates, 12-bit immediates sign-extended, shift amounts of bits 24 to 20. -/
def Obligations.ImmediateArithmetic : Prop :=
  ∀ (s : State) (w : Word),
    let rd := rdOf w
    let rs1 := rs1Of w
    let a := s.reg rs1
    let imm := bitsI w
    let i : Word := imm.signExtend 32
    let sh := rs2Of w
    let up := w.extractLsb' 12 20
    let u : Word := w &&& 0xFFFFF000#32
    Computes s w 0x00000037#32 0x0000007F#32 (.lui rd up) rd (u) ∧
    Computes s w 0x00000017#32 0x0000007F#32 (.auipc rd up) rd (s.pc + u) ∧
    Computes s w 0x00000013#32 0x0000707F#32 (.addi rd rs1 imm) rd (a + i) ∧
    Computes s w 0x00002013#32 0x0000707F#32 (.slti rd rs1 imm) rd (if a.toInt < i.toInt then 1#32 else 0#32) ∧
    Computes s w 0x00003013#32 0x0000707F#32 (.sltiu rd rs1 imm) rd (if a.toNat < i.toNat then 1#32 else 0#32) ∧
    Computes s w 0x00004013#32 0x0000707F#32 (.xori rd rs1 imm) rd (a ^^^ i) ∧
    Computes s w 0x00006013#32 0x0000707F#32 (.ori rd rs1 imm) rd (a ||| i) ∧
    Computes s w 0x00007013#32 0x0000707F#32 (.andi rd rs1 imm) rd (a &&& i) ∧
    Computes s w 0x00001013#32 0xFE00707F#32 (.slli rd rs1 sh) rd (a <<< sh.toNat) ∧
    Computes s w 0x00005013#32 0xFE00707F#32 (.srli rd rs1 sh) rd (a >>> sh.toNat) ∧
    Computes s w 0x40005013#32 0xFE00707F#32 (.srai rd rs1 sh) rd (a.sshiftRight sh.toNat)

/-- The ten register-register instructions (40 R228 to R237): shift amounts are taken modulo 32. -/
def Obligations.RegisterArithmetic : Prop :=
  ∀ (s : State) (w : Word),
    let rd := rdOf w
    let rs1 := rs1Of w
    let rs2 := rs2Of w
    let a := s.reg rs1
    let b := s.reg rs2
    Computes s w 0x00000033#32 0xFE00707F#32 (.add rd rs1 rs2) rd (a + b) ∧
    Computes s w 0x40000033#32 0xFE00707F#32 (.sub rd rs1 rs2) rd (a - b) ∧
    Computes s w 0x00001033#32 0xFE00707F#32 (.sll rd rs1 rs2) rd (a <<< (b.toNat % 32)) ∧
    Computes s w 0x00002033#32 0xFE00707F#32 (.slt rd rs1 rs2) rd (if a.toInt < b.toInt then 1#32 else 0#32) ∧
    Computes s w 0x00003033#32 0xFE00707F#32 (.sltu rd rs1 rs2) rd (if a.toNat < b.toNat then 1#32 else 0#32) ∧
    Computes s w 0x00004033#32 0xFE00707F#32 (.xor rd rs1 rs2) rd (a ^^^ b) ∧
    Computes s w 0x00005033#32 0xFE00707F#32 (.srl rd rs1 rs2) rd (a >>> (b.toNat % 32)) ∧
    Computes s w 0x40005033#32 0xFE00707F#32 (.sra rd rs1 rs2) rd (a.sshiftRight (b.toNat % 32)) ∧
    Computes s w 0x00006033#32 0xFE00707F#32 (.or rd rs1 rs2) rd (a ||| b) ∧
    Computes s w 0x00007033#32 0xFE00707F#32 (.and rd rs1 rs2) rd (a &&& b)

/-- The four products (42 R291 to R294): 32 bits of the 64-bit product of the operands, each extended by its sign or by
zeros. -/
def Obligations.MultiplyProducts : Prop :=
  ∀ (s : State) (w : Word),
    let rd := rdOf w
    let rs1 := rs1Of w
    let rs2 := rs2Of w
    let a := s.reg rs1
    let b := s.reg rs2
    Computes s w 0x02000033#32 0xFE00707F#32 (.mul rd rs1 rs2)
      rd (((a.signExtend 64 : BitVec 64) * (b.signExtend 64 : BitVec 64)).extractLsb' 0 32) ∧
    Computes s w 0x02001033#32 0xFE00707F#32 (.mulh rd rs1 rs2)
      rd (((a.signExtend 64 : BitVec 64) * (b.signExtend 64 : BitVec 64)).extractLsb' 32 32) ∧
    Computes s w 0x02002033#32 0xFE00707F#32 (.mulhsu rd rs1 rs2)
      rd (((a.signExtend 64 : BitVec 64) * (b.setWidth 64 : BitVec 64)).extractLsb' 32 32) ∧
    Computes s w 0x02003033#32 0xFE00707F#32 (.mulhu rd rs1 rs2)
      rd (((a.setWidth 64 : BitVec 64) * (b.setWidth 64 : BitVec 64)).extractLsb' 32 32)

/-- The four divisions (42 R295 to R298): the quotient has the magnitude of the quotient of the magnitudes and the sign of
the operands' signs together, the remainder is what is left; by zero -1 or all ones and the dividend; on overflow the
dividend and 0. -/
def Obligations.DivideValues : Prop :=
  ∀ (s : State) (w : Word),
    let rd := rdOf w
    let rs1 := rs1Of w
    let rs2 := rs2Of w
    let a := s.reg rs1
    let b := s.reg rs2
    let q : Int := a.toInt.sign * b.toInt.sign * ((a.toInt.natAbs / b.toInt.natAbs : Nat) : Int)
    Computes s w 0x02004033#32 0xFE00707F#32 (.div rd rs1 rs2)
      rd (if b.toInt = 0 then 0xFFFFFFFF#32 else if a.toInt = -2 ^ 31 ∧ b.toInt = -1 then 0x80000000#32 else BitVec.ofInt 32 q) ∧
    Computes s w 0x02005033#32 0xFE00707F#32 (.divu rd rs1 rs2)
      rd (if b.toNat = 0 then 0xFFFFFFFF#32 else BitVec.ofNat 32 (a.toNat / b.toNat)) ∧
    Computes s w 0x02006033#32 0xFE00707F#32 (.rem rd rs1 rs2)
      rd (if b.toInt = 0 then a else if a.toInt = -2 ^ 31 ∧ b.toInt = -1 then 0#32 else BitVec.ofInt 32 (a.toInt - b.toInt * q)) ∧
    Computes s w 0x02007033#32 0xFE00707F#32 (.remu rd rs1 rs2)
      rd (if b.toNat = 0 then a else BitVec.ofNat 32 (a.toNat % b.toNat))

/-- The divide corner cases (42 R299): the table, dividend = divisor times quotient plus remainder in every case, and no
other state changed. -/
def Obligations.DivideCorners : Prop :=
  ∀ (s : State) (rd rs1 rs2 : Reg), rd ≠ 0#5 →
    let a := s.reg rs1
    let b := s.reg rs2
    ∃ tq tr tqu tru : State,
      exec (.div rd rs1 rs2) s = .next tq ∧ exec (.rem rd rs1 rs2) s = .next tr ∧
        exec (.divu rd rs1 rs2) s = .next tqu ∧ exec (.remu rd rs1 rs2) s = .next tru ∧
          a = b * tq.reg rd + tr.reg rd ∧ a = b * tqu.reg rd + tru.reg rd ∧
            (b = 0#32 →
              tqu.reg rd = 0xFFFFFFFF#32 ∧ tru.reg rd = a ∧ tq.reg rd = 0xFFFFFFFF#32 ∧ tr.reg rd = a) ∧
              (a = 0x80000000#32 → b = 0xFFFFFFFF#32 → tq.reg rd = 0x80000000#32 ∧ tr.reg rd = 0#32) ∧
                SameButRegs s tq ∧ SameButRegs s tr ∧ SameButRegs s tqu ∧ SameButRegs s tru

/-- Zba and the logic and minimum instructions of Zbb (45 R391 to R396, R400 to R403). -/
def Obligations.ShiftAddLogicMinMax : Prop :=
  ∀ (s : State) (w : Word),
    let rd := rdOf w
    let rs1 := rs1Of w
    let rs2 := rs2Of w
    let a := s.reg rs1
    let b := s.reg rs2
    (s.cfg.has .zba = true → Computes s w 0x20002033#32 0xFE00707F#32 (.sh1add rd rs1 rs2) rd (b + (a <<< 1))) ∧
    (s.cfg.has .zba = true → Computes s w 0x20004033#32 0xFE00707F#32 (.sh2add rd rs1 rs2) rd (b + (a <<< 2))) ∧
    (s.cfg.has .zba = true → Computes s w 0x20006033#32 0xFE00707F#32 (.sh3add rd rs1 rs2) rd (b + (a <<< 3))) ∧
    (s.cfg.has .zbb = true → Computes s w 0x40007033#32 0xFE00707F#32 (.andn rd rs1 rs2) rd (a &&& ~~~b)) ∧
    (s.cfg.has .zbb = true → Computes s w 0x40006033#32 0xFE00707F#32 (.orn rd rs1 rs2) rd (a ||| ~~~b)) ∧
    (s.cfg.has .zbb = true → Computes s w 0x40004033#32 0xFE00707F#32 (.xnor rd rs1 rs2) rd (~~~(a ^^^ b))) ∧
    (s.cfg.has .zbb = true → Computes s w 0x0A006033#32 0xFE00707F#32 (.max rd rs1 rs2)
      rd (if a.toInt < b.toInt then b else a)) ∧
    (s.cfg.has .zbb = true → Computes s w 0x0A007033#32 0xFE00707F#32 (.maxu rd rs1 rs2)
      rd (if a.toNat < b.toNat then b else a)) ∧
    (s.cfg.has .zbb = true → Computes s w 0x0A004033#32 0xFE00707F#32 (.min rd rs1 rs2)
      rd (if a.toInt < b.toInt then a else b)) ∧
    (s.cfg.has .zbb = true → Computes s w 0x0A005033#32 0xFE00707F#32 (.minu rd rs1 rs2)
      rd (if a.toNat < b.toNat then a else b))

/-- `clz`, `ctz` and `cpop` (45 R397 to R399): the number of 0 bits before the first 1 bit from the top or from the
bottom, 32 if there is none, and the number of 1 bits. -/
def Obligations.BitCounts : Prop :=
  ∀ (s : State) (w : Word), s.cfg.has .zbb = true →
    let rd := rdOf w
    let rs1 := rs1Of w
    let a := s.reg rs1
    (∀ n : Nat, n ≤ 32 → (∀ j < n, a.getLsbD (31 - j) = false) → (n = 32 ∨ a.getLsbD (31 - n) = true) →
      Computes s w 0x60001013#32 0xFFF0707F#32 (.clz rd rs1) rd (BitVec.ofNat 32 n)) ∧
    (∀ n : Nat, n ≤ 32 → (∀ j < n, a.getLsbD j = false) → (n = 32 ∨ a.getLsbD n = true) →
      Computes s w 0x60101013#32 0xFFF0707F#32 (.ctz rd rs1) rd (BitVec.ofNat 32 n)) ∧
    Computes s w 0x60201013#32 0xFFF0707F#32 (.cpop rd rs1)
      rd (BitVec.ofNat 32 (Finset.univ.filter (fun j : Fin 32 => a.getLsbD j.val = true)).card)

/-- `sext.b`, `sext.h`, `zext.h`, `orc.b`, `rev8` (45 R404 to R406, R410, R411). -/
def Obligations.ExtendAndBytes : Prop :=
  ∀ (s : State) (w : Word), s.cfg.has .zbb = true →
    let rd := rdOf w
    let rs1 := rs1Of w
    let a := s.reg rs1
    let byte (k : Nat) : Byte := a.extractLsb' (8 * k) 8
    let full (k : Nat) : Byte := if byte k = 0x00#8 then 0x00#8 else 0xFF#8
    Computes s w 0x60401013#32 0xFFF0707F#32 (.sextB rd rs1) rd ((byte 0).signExtend 32) ∧
    Computes s w 0x60501013#32 0xFFF0707F#32 (.sextH rd rs1) rd ((byte 1 ++ byte 0).signExtend 32) ∧
    Computes s w 0x08004033#32 0xFFF0707F#32 (.zextH rd rs1) rd ((byte 1 ++ byte 0).setWidth 32) ∧
    Computes s w 0x28705013#32 0xFFF0707F#32 (.orcB rd rs1) rd ((full 3 ++ full 2 ++ full 1 ++ full 0).setWidth 32) ∧
    Computes s w 0x69805013#32 0xFFF0707F#32 (.rev8 rd rs1) rd ((byte 0 ++ byte 1 ++ byte 2 ++ byte 3).setWidth 32)

/-- `rol`, `ror`, `rori` (45 R407 to R409): each bit moves by the amount modulo 32. -/
def Obligations.Rotates : Prop :=
  ∀ (s : State) (w : Word), s.cfg.has .zbb = true →
    let rd := rdOf w
    let rs1 := rs1Of w
    let rs2 := rs2Of w
    let a := s.reg rs1
    let b := s.reg rs2
    let sh := rs2Of w
    (∀ v : Word, (∀ j : Fin 32, v.getLsbD ((j.val + b.toNat) % 32) = a.getLsbD j.val) →
      Computes s w 0x60001033#32 0xFE00707F#32 (.rol rd rs1 rs2) rd (v)) ∧
    (∀ v : Word, (∀ j : Fin 32, v.getLsbD j.val = a.getLsbD ((j.val + b.toNat) % 32)) →
      Computes s w 0x60005033#32 0xFE00707F#32 (.ror rd rs1 rs2) rd (v)) ∧
    (∀ v : Word, (∀ j : Fin 32, v.getLsbD j.val = a.getLsbD ((j.val + sh.toNat) % 32)) →
      Computes s w 0x60005013#32 0xFE00707F#32 (.rori rd rs1 sh) rd (v))

/-- Zbs (45 R412 to R419): clear, extract, invert or set the bit that the low five bits of a register or a constant name.
-/
def Obligations.SingleBits : Prop :=
  ∀ (s : State) (w : Word), s.cfg.has .zbs = true →
    let rd := rdOf w
    let rs1 := rs1Of w
    let rs2 := rs2Of w
    let a := s.reg rs1
    let b := s.reg rs2
    let sh := rs2Of w
    let mb : Word := 1#32 <<< (b.toNat % 32)
    let mi : Word := 1#32 <<< sh.toNat
    Computes s w 0x48001033#32 0xFE00707F#32 (.bclr rd rs1 rs2) rd (a &&& ~~~mb) ∧
    Computes s w 0x48001013#32 0xFE00707F#32 (.bclri rd rs1 sh) rd (a &&& ~~~mi) ∧
    Computes s w 0x48005033#32 0xFE00707F#32 (.bext rd rs1 rs2) rd (if a.getLsbD (b.toNat % 32) then 1#32 else 0#32) ∧
    Computes s w 0x48005013#32 0xFE00707F#32 (.bexti rd rs1 sh) rd (if a.getLsbD sh.toNat then 1#32 else 0#32) ∧
    Computes s w 0x68001033#32 0xFE00707F#32 (.binv rd rs1 rs2) rd (a ^^^ mb) ∧
    Computes s w 0x68001013#32 0xFE00707F#32 (.binvi rd rs1 sh) rd (a ^^^ mi) ∧
    Computes s w 0x28001033#32 0xFE00707F#32 (.bset rd rs1 rs2) rd (a ||| mb) ∧
    Computes s w 0x28001013#32 0xFE00707F#32 (.bseti rd rs1 sh) rd (a ||| mi)

/-- Six compressed instructions with an immediate (44 R343, R346, R347, R349 to R351), with their constraints and what
these reserve; `c.nop` changes the pc only. What a parcel decodes to is said where no supplied XW
row that it matches has as many 1 bits in its mask, or more (30 R156). -/
def Obligations.CompressedImmediates : Prop :=
  ∀ (s : State) (p : Half),
    let rd : Reg := p.extractLsb' 7 5
    let r : CReg := p.extractLsb' 2 3
    let imm := bits6 p
    let i : Word := imm.signExtend 32
    let spn : BitVec 10 :=
      (p.extractLsb' 7 4 ++ p.extractLsb' 11 2 ++ p.extractLsb' 5 1 ++ p.extractLsb' 6 1 ++ 0#2).setWidth 10
    let spi : BitVec 10 :=
      (p.extractLsb' 12 1 ++ p.extractLsb' 3 2 ++ p.extractLsb' 5 1 ++ p.extractLsb' 2 1 ++ p.extractLsb' 6 1 ++ 0#4).setWidth 10
    (spn ≠ 0#10 → Computes16 s p 0x0000#16 0xE003#16 (.cAddi4spn r spn) (shortReg r) (s.reg 2#5 + spn.setWidth 32)) ∧
    Encodes16 s p 0x0001#16 0xEF83#16 (.cNop imm) (fun i => OnlyMovesTo i s (s.pc + 2#32)) ∧
    (rd ≠ 0#5 → Computes16 s p 0x0001#16 0xE003#16 (.cAddi rd imm) rd (s.reg rd + i)) ∧
    Computes16 s p 0x4001#16 0xE003#16 (.cLi rd imm) rd (i) ∧
    (spi ≠ 0#10 → Computes16 s p 0x6101#16 0xEF83#16 (.cAddi16sp spi) 2#5 (s.reg 2#5 + spi.signExtend 32)) ∧
    (rd ≠ 2#5 → imm ≠ 0#6 → Computes16 s p 0x6001#16 0xE003#16 (.cLui rd imm) rd ((imm ++ 0#12).signExtend 32)) ∧
    (spn = 0#10 → Reserved s p 0x0000#16 0xE003#16) ∧
    (spi = 0#10 → Reserved s p 0x6101#16 0xEF83#16) ∧
    (imm = 0#6 → Reserved s p 0x6001#16 0xE003#16)

/-- Ten compressed instructions on registers (44 R352 to R358, R362, R365, R368), with their constraints; a shift with bit
12 set is reserved. What a parcel decodes to is said where no supplied XW row that it matches has as many 1 bits in its mask,
or more (30 R156). -/
def Obligations.CompressedRegisters : Prop :=
  ∀ (s : State) (p : Half),
    let rd : Reg := p.extractLsb' 7 5
    let rs2 : Reg := p.extractLsb' 2 5
    let r : CReg := p.extractLsb' 7 3
    let q : CReg := p.extractLsb' 2 3
    let x := shortReg r
    let a := s.reg x
    let b := s.reg (shortReg q)
    Computes16 s p 0x8001#16 0xFC03#16 (.cSrli r rs2) x (a >>> rs2.toNat) ∧
    Computes16 s p 0x8401#16 0xFC03#16 (.cSrai r rs2) x (a.sshiftRight rs2.toNat) ∧
    Computes16 s p 0x8801#16 0xEC03#16 (.cAndi r (bits6 p)) x (a &&& (bits6 p).signExtend 32) ∧
    Computes16 s p 0x8C01#16 0xFC63#16 (.cSub r q) x (a - b) ∧
    Computes16 s p 0x8C21#16 0xFC63#16 (.cXor r q) x (a ^^^ b) ∧
    Computes16 s p 0x8C41#16 0xFC63#16 (.cOr r q) x (a ||| b) ∧
    Computes16 s p 0x8C61#16 0xFC63#16 (.cAnd r q) x (a &&& b) ∧
    Computes16 s p 0x0002#16 0xF003#16 (.cSlli rd rs2) rd (s.reg rd <<< rs2.toNat) ∧
    (rs2 ≠ 0#5 → Computes16 s p 0x8002#16 0xF003#16 (.cMv rd rs2) rd (s.reg rs2)) ∧
    (rs2 ≠ 0#5 → Computes16 s p 0x9002#16 0xF003#16 (.cAdd rd rs2) rd (s.reg rd + s.reg rs2)) ∧
    Reserved s p 0x9001#16 0xFC03#16 ∧
    Reserved s p 0x9401#16 0xFC03#16 ∧
    Reserved s p 0x1002#16 0xF003#16

/-- The jumps (40 R203, R204; 44 R348, R359, R364, R367): the target, the link to the next instruction, registers read
before the link is written. What a parcel decodes to is said where no supplied XW row that it matches has as many 1 bits in
its mask, or more (30 R156). -/
def Obligations.JumpsAndLinks : Prop :=
  ∀ (s : State) (w : Word) (p : Half),
    let rd := rdOf w
    let rs1 := rs1Of w
    let r : Reg := p.extractLsb' 7 5
    let off : Word := (bitsCJ p).signExtend 32
    let even (v : Word) : Word := v &&& 0xFFFFFFFE#32
    Encodes s w 0x0000006F#32 0x0000007F#32 (.jal rd (bitsJ w))
      (fun i => Writes i s rd (s.pc + 4#32) (s.pc + (bitsJ w).signExtend 32)) ∧
    Encodes s w 0x00000067#32 0x0000707F#32 (.jalr rd rs1 (bitsI w))
      (fun i => Writes i s rd (s.pc + 4#32) (even (s.reg rs1 + (bitsI w).signExtend 32))) ∧
    Encodes16 s p 0x2001#16 0xE003#16 (.cJal (bitsCJ p)) (fun i => Writes i s 1#5 (s.pc + 2#32) (s.pc + off)) ∧
    Encodes16 s p 0xA001#16 0xE003#16 (.cJ (bitsCJ p)) (fun i => OnlyMovesTo i s (s.pc + off)) ∧
    (r ≠ 0#5 → Encodes16 s p 0x8002#16 0xF07F#16 (.cJr r) (fun i => OnlyMovesTo i s (even (s.reg r)))) ∧
    Reserved s p 0x8002#16 0xFFFF#16 ∧
    (r ≠ 0#5 → Encodes16 s p 0x9002#16 0xF07F#16 (.cJalr r)
      (fun i => Writes i s 1#5 (s.pc + 2#32) (even (s.reg r))))

/-- The branches (40 R205 to R210; 44 R360, R361): relative to their own address if the condition holds, else on to the
next instruction. What a parcel decodes to is said where no supplied XW row that it matches has as many 1 bits in its mask,
or more (30 R156). -/
def Obligations.ConditionalBranches : Prop :=
  ∀ (s : State) (w : Word) (p : Half),
    let rs1 := rs1Of w
    let rs2 := rs2Of w
    let target : Word := s.pc + (bitsB w).signExtend 32
    let after : Word := s.pc + 4#32
    let r : CReg := p.extractLsb' 7 3
    let ctarget : Word := s.pc + (bitsCB p).signExtend 32
    let cafter : Word := s.pc + 2#32
    Encodes s w 0x00000063#32 0x0000707F#32 (.beq rs1 rs2 (bitsB w))
      (fun i => OnlyMovesTo i s (if s.reg rs1 = s.reg rs2 then target else after)) ∧
    Encodes s w 0x00001063#32 0x0000707F#32 (.bne rs1 rs2 (bitsB w))
      (fun i => OnlyMovesTo i s (if s.reg rs1 ≠ s.reg rs2 then target else after)) ∧
    Encodes s w 0x00004063#32 0x0000707F#32 (.blt rs1 rs2 (bitsB w))
      (fun i => OnlyMovesTo i s (if (s.reg rs1).toInt < (s.reg rs2).toInt then target else after)) ∧
    Encodes s w 0x00005063#32 0x0000707F#32 (.bge rs1 rs2 (bitsB w))
      (fun i => OnlyMovesTo i s (if (s.reg rs2).toInt ≤ (s.reg rs1).toInt then target else after)) ∧
    Encodes s w 0x00006063#32 0x0000707F#32 (.bltu rs1 rs2 (bitsB w))
      (fun i => OnlyMovesTo i s (if (s.reg rs1).toNat < (s.reg rs2).toNat then target else after)) ∧
    Encodes s w 0x00007063#32 0x0000707F#32 (.bgeu rs1 rs2 (bitsB w))
      (fun i => OnlyMovesTo i s (if (s.reg rs2).toNat ≤ (s.reg rs1).toNat then target else after)) ∧
    Encodes16 s p 0xC001#16 0xE003#16 (.cBeqz r (bitsCB p))
      (fun i => OnlyMovesTo i s (if s.reg (shortReg r) = 0#32 then ctarget else cafter)) ∧
    Encodes16 s p 0xE001#16 0xE003#16 (.cBnez r (bitsCB p))
      (fun i => OnlyMovesTo i s (if s.reg (shortReg r) ≠ 0#32 then ctarget else cafter))

/-- The loads from RAM or ROM (40 R211 to R215, 20 R100, R104): little-endian, extended by the sign or by zeros. -/
def Obligations.LoadsFromMemory : Prop :=
  ∀ (s : State) (w : Word) (b0 b1 b2 b3 : Byte),
    let rd := rdOf w
    let rs1 := rs1Of w
    let a : Word := s.reg rs1 + (bitsI w).signExtend 32
    Encodes s w 0x00000003#32 0x0000707F#32 (.lb rd rs1 (bitsI w))
      (fun i => Loadable s a .byte [b0] → Writes i s rd (b0.signExtend 32) (s.pc + 4#32)) ∧
    Encodes s w 0x00004003#32 0x0000707F#32 (.lbu rd rs1 (bitsI w))
      (fun i => Loadable s a .byte [b0] → Writes i s rd (b0.setWidth 32) (s.pc + 4#32)) ∧
    Encodes s w 0x00001003#32 0x0000707F#32 (.lh rd rs1 (bitsI w))
      (fun i => Loadable s a .half [b0, b1] → Writes i s rd ((b1 ++ b0).signExtend 32) (s.pc + 4#32)) ∧
    Encodes s w 0x00005003#32 0x0000707F#32 (.lhu rd rs1 (bitsI w))
      (fun i => Loadable s a .half [b0, b1] → Writes i s rd ((b1 ++ b0).setWidth 32) (s.pc + 4#32)) ∧
    Encodes s w 0x00002003#32 0x0000707F#32 (.lw rd rs1 (bitsI w))
      (fun i => Loadable s a .word [b0, b1, b2, b3] → Writes i s rd ((b3 ++ b2 ++ b1 ++ b0).setWidth 32) (s.pc + 4#32))

/-- The compressed loads and the XW loads (44 R344, R363; 46 R441, R442, R445, R446); XW operands are those `XW_DECODE`
gives. What a parcel decodes to is said where no supplied XW row that it matches has as many 1 bits in its mask, or more
(30 R156). -/
def Obligations.CompressedLoads : Prop :=
  ∀ (s : State) (p : Half) (rd rs1 : Reg) (off : Word) (b0 b1 b2 b3 : Byte),
    let q : CReg := p.extractLsb' 2 3
    let r : CReg := p.extractLsb' 7 3
    let d : Reg := p.extractLsb' 7 5
    let spo : BitVec 8 := (p.extractLsb' 2 2 ++ p.extractLsb' 12 1 ++ p.extractLsb' 4 3 ++ 0#2).setWidth 8
    let word : Word := (b3 ++ b2 ++ b1 ++ b0).setWidth 32
    let next : Word := s.pc + 2#32
    Encodes16 s p 0x4000#16 0xE003#16 (.cLw q r (bitsLw p))
      (fun i => Loadable s (s.reg (shortReg r) + (bitsLw p).setWidth 32) .word [b0, b1, b2, b3] →
        Writes i s (shortReg q) word next) ∧
    (d ≠ 0#5 → Encodes16 s p 0x4002#16 0xE003#16 (.cLwsp d spo)
      (fun i => Loadable s (s.reg 2#5 + spo.setWidth 32) .word [b0, b1, b2, b3] → Writes i s d word next)) ∧
    Reserved s p 0x4002#16 0xEF83#16 ∧
    (Loadable s (s.reg rs1 + off) .byte [b0] → Writes (.cLbu rd rs1 off) s rd (b0.setWidth 32) next) ∧
    (Loadable s (s.reg rs1 + off) .half [b0, b1] → Writes (.cLhu rd rs1 off) s rd ((b1 ++ b0).setWidth 32) next) ∧
    (Loadable s (s.reg 2#5 + off) .byte [b0] → Writes (.cLbusp rd off) s rd (b0.setWidth 32) next) ∧
    (Loadable s (s.reg 2#5 + off) .half [b0, b1] → Writes (.cLhusp rd off) s rd ((b1 ++ b0).setWidth 32) next)

/-- The stores to RAM (40 R216 to R218, 20 R100, R105): the low bytes at rising addresses, every other byte and every
register as before. -/
def Obligations.StoresToRam : Prop :=
  ∀ (s : State) (w : Word),
    let rs1 := rs1Of w
    let rs2 := rs2Of w
    let a : Word := s.reg rs1 + (bitsS w).signExtend 32
    Encodes s w 0x00000023#32 0x0000707F#32 (.sb rs2 rs1 (bitsS w))
      (fun i => Storable s a .byte → Stores i s a .byte (s.reg rs2) (s.pc + 4#32)) ∧
    Encodes s w 0x00001023#32 0x0000707F#32 (.sh rs2 rs1 (bitsS w))
      (fun i => Storable s a .half → Stores i s a .half (s.reg rs2) (s.pc + 4#32)) ∧
    Encodes s w 0x00002023#32 0x0000707F#32 (.sw rs2 rs1 (bitsS w))
      (fun i => Storable s a .word → Stores i s a .word (s.reg rs2) (s.pc + 4#32))

/-- The compressed stores and the XW stores (44 R345, R369; 46 R443, R444, R447, R448). What a parcel decodes to is said where
no supplied XW row that it matches has as many 1 bits in its mask, or more (30 R156). -/
def Obligations.CompressedStores : Prop :=
  ∀ (s : State) (p : Half) (rs2 rs1 : Reg) (off : Word),
    let q : CReg := p.extractLsb' 2 3
    let r : CReg := p.extractLsb' 7 3
    let d : Reg := p.extractLsb' 2 5
    let spo : BitVec 8 := (p.extractLsb' 7 2 ++ p.extractLsb' 9 4 ++ 0#2).setWidth 8
    let at1 : Word := s.reg rs1 + off
    let atSp : Word := s.reg 2#5 + off
    let next : Word := s.pc + 2#32
    Encodes16 s p 0xC000#16 0xE003#16 (.cSw q r (bitsLw p))
      (fun i => Storable s (s.reg (shortReg r) + (bitsLw p).setWidth 32) .word →
        Stores i s (s.reg (shortReg r) + (bitsLw p).setWidth 32) .word (s.reg (shortReg q)) next) ∧
    Encodes16 s p 0xC002#16 0xE003#16 (.cSwsp d spo)
      (fun i => Storable s (s.reg 2#5 + spo.setWidth 32) .word →
        Stores i s (s.reg 2#5 + spo.setWidth 32) .word (s.reg d) next) ∧
    (Storable s at1 .byte → Stores (.cSb rs2 rs1 off) s at1 .byte (s.reg rs2) next) ∧
    (Storable s at1 .half → Stores (.cSh rs2 rs1 off) s at1 .half (s.reg rs2) next) ∧
    (Storable s atSp .byte → Stores (.cSbsp rs2 off) s atSp .byte (s.reg rs2) next) ∧
    (Storable s atSp .half → Stores (.cShsp rs2 off) s atSp .half (s.reg rs2) next)

/-- Decode and encode agree (30 R160): the bits of a well-formed instruction of the member decode to it, for all
instructions but the eight XW ones, whose bits only `XW_DECODE` gives (46 R440). Of a parcel it is said where no supplied
row that it matches has as many 1 bits in its mask as the instruction's row, or more (30 R156). -/
def Obligations.DecodeOfEncode : Prop :=
  ∀ (c : Config) (i : Instr), i.wellFormed = true → i.isXw = false → i.onMember c = true →
    ∃ f, i.encode c = some f ∧ ((∀ p, f = .half p → KeepsParcel c p (maskOnes i.rowMask)) → decode c f = .instr i)

/-- The other direction (30 R156): bits that decode to an instruction are the bits the encoder gives it, so no two
encodings share an instruction and no bit is dropped. -/
def Obligations.EncodeOfDecode : Prop :=
  ∀ (c : Config) (f : Fetched) (i : Instr), decode c f = .instr i → i.isXw = false →
    i.encode c = some f ∧ i.wellFormed = true ∧ i.onMember c = true

/-- The rows of `XW_DECODE` join the table (30 R156, R157, 46 R440): of the rows whose match and mask a parcel meets, the one
with more 1 bits in its mask than every other gives the instruction, with the register fields and the offset bits it names
if it is a supplied row; a parcel that meets no supplied row is as without them; the zero parcel stays illegal. The shape of
a row, and that the table wins where masks have as many 1 bits, are the model's (DESIGN CHOICE, log 5). -/
def Obligations.XwDecoding : Prop :=
  ∀ (c : Config) (p : Half), c.variant.isV3A = false →
    let table := decode { c with xw := [] } (.half p)
    let meets (row : XwRow) : Prop := p &&& row.mask = row.pattern
    decode c (.half 0#16) = .illegal ∧
    ((∀ row ∈ c.xw, ¬meets row) → decode c (.half p) = table) ∧
    (∀ i, table = .instr i → (∀ row ∈ c.xw, meets row → maskOnes row.mask ≤ maskOnes i.rowMask) →
      decode c (.half p) = .instr i) ∧
    (∀ row ∈ c.xw, p ≠ 0#16 → meets row →
      (∀ r ∈ c.xw, meets r → r ≠ row → maskOnes r.mask < maskOnes row.mask) →
        (∀ i, table = .instr i → maskOnes i.rowMask < maskOnes row.mask) →
          ∃ (d b : Reg) (off : Word),
            d = (if row.data.short then 8#5 + (p.extractLsb' row.data.lo 3).setWidth 5 else p.extractLsb' row.data.lo 5) ∧
              b = (if row.base.short then 8#5 + (p.extractLsb' row.base.lo 3).setWidth 5 else p.extractLsb' row.base.lo 5) ∧
                (∀ k < 32, off.getLsbD k = true ↔ ∃ e ∈ row.imm, e.2 = k ∧ p.getLsbD e.1 = true) ∧
                  decode c (.half p) =
                    .instr
                      (match row.op with
                        | .lbu => .cLbu d b off
                        | .lhu => .cLhu d b off
                        | .sb => .cSb d b off
                        | .sh => .cSh d b off
                        | .lbusp => .cLbusp d off
                        | .lhusp => .cLhusp d off
                        | .sbsp => .cSbsp d off
                        | .shsp => .cShsp d off))

/-- Bits that match no row (30 R157): on V3A, and for the two fixed words on every member, the illegal instruction
exception with the bits in `mtval`; on V3B/C a refusal. -/
def Obligations.UnknownWords : Prop :=
  ∀ (s : State) (f : Fetched), Undisturbed s → FetchReady s f →
    let s0 : State := { s with draws := s.draws + 1, pmpBefore := none }
    ((∀ i, decode s.cfg f ≠ .instr i) →
      decode s.cfg f = if s.isV3A = true ∨ f = .half 0x0000#16 ∨ f = .full 0xFFFFFFFF#32 then .illegal else .unknown) ∧
    (decode s.cfg f = .illegal → ∀ target, ExceptionReady s 2#32 target →
      ∃ t, step s = afterStep (.next t) ∧ TrapTaken s0 t false 2#32 3#8 f.bits s.pc target) ∧
    (decode s.cfg f = .unknown → step s = .refused (.unknownEncoding f.bits))

/-- Words the spec writes out as examples decode to the instructions they stand for: V3A words under the first, V3B words
under the second configuration. -/
def Obligations.SpecWordsDecode : Prop :=
  let a : Config := { Config.default with variant := .v3a }
  let b : Config := { Config.default with variant := .v3b }
  decode a (.full 0x123452B7#32) = .instr (.lui 5#5 0x12345#20) ∧
    decode a (.full 0xFE62D8E3#32) = .instr (.bge 5#5 6#5 (-16)) ∧
    decode a (.full 0xFE512C23#32) = .instr (.sw 5#5 2#5 (-8)) ∧
    decode a (.full 0x0220A1B3#32) = .instr (.mulhsu 3#5 1#5 2#5) ∧
    decode a (.full 0x300022F3#32) = .instr (.csrrs 5#5 0x300#12 0#5) ∧
    decode a (.full 0x30200073#32) = .instr .mret ∧
    decode a (.full 0x08C5A52F#32) = .instr (.amoswapW 10#5 12#5 11#5 0#1 0#1) ∧
    decode a (.half 0x3FFD#16) = .instr (.cJal (-2)) ∧
    decode a (.half 0xC606#16) = .instr (.cSwsp 1#5 12#8) ∧
    decode b (.full 0x69835293#32) = .instr (.rev8 5#5 6#5) ∧
    decode b (.full 0x207342B3#32) = .instr (.sh2add 5#5 6#5 7#5) ∧
    decode b (.full 0x49F31293#32) = .instr (.bclri 5#5 6#5 31#5)

/-- A step runs the decoded instruction (60 R513): with nothing else due, the step is `exec` of the instruction at `pc` on
the state whose boundary is used up and whose PMP record is cleared; `afterStep` re-enters debug mode when single-
stepping. -/
def Obligations.StepRunsDecoded : Prop :=
  ∀ (s : State) (f : Fetched) (i : Instr), Undisturbed s → FetchReady s f → decode s.cfg f = .instr i →
    step s = afterStep (exec i { s with draws := s.draws + 1, pmpBefore := none })

/-- A misaligned load or store of every form but the atomics under `MISALIGNED_POLICY` (20 R104, 92 D2): refused, or the
misaligned exception of code 4 or 6 with the address. The default policy is log 4. -/
def Obligations.MisalignedPolicy : Prop :=
  ∀ (s : State) (i : Instr) (a : Word) (w : Width), w.aligned a = false → i.feature ≠ .a →
    (loadsFrom s i = some (a, w) → s.triggered .load a = .pass →
      (s.cfg.misaligned = .refuse → exec i s = .refused (.misalignedAccess a)) ∧
        (s.cfg.misaligned = .trap → ∀ target, ExceptionReady s 4#32 target →
          TakesException s (exec i s) 4#32 a target)) ∧
    (storesTo s i = some (a, w) → s.triggered .store a = .pass →
      (s.cfg.misaligned = .refuse → exec i s = .refused (.misalignedAccess a)) ∧
        (s.cfg.misaligned = .trap → ∀ target, ExceptionReady s 6#32 target →
          TakesException s (exec i s) 6#32 a target))

/-- A misaligned access under `MISALIGNED_POLICY = split` (20 R104 step 1): every load and store of a halfword or a word
takes its bytes one by one, at addresses modulo 2^32, and gives the value, or leaves the bytes, of an aligned one. A store
may clear a reservation of a block it touches (43 R312). The order of the bytes is the model's (log 4). -/
def Obligations.SplitAccess : Prop :=
  ∀ (s : State) (rd rs1 rs2 : Reg) (q r : CReg) (imm : BitVec 12) (o7 : BitVec 7) (o8 : BitVec 8) (off : Word)
    (b0 b1 b2 b3 : Byte),
    let next4 : Word := s.pc + 4#32
    let next2 : Word := s.pc + 2#32
    let a : Word := s.reg rs1 + imm.signExtend 32
    let ac : Word := s.reg (shortReg r) + o7.setWidth 32
    let asp : Word := s.reg 2#5 + o8.setWidth 32
    let ax : Word := s.reg rs1 + off
    let axsp : Word := s.reg 2#5 + off
    let half (at_ : Word) (i : Instr) (rd : Reg) (v next : Word) : Prop :=
      SplitReady s .load at_ .half → BytesAre s (Width.half.addrs at_) [b0, b1] → Writes i s rd v next
    let word (at_ : Word) (i : Instr) (rd : Reg) (next : Word) : Prop :=
      SplitReady s .load at_ .word → BytesAre s (Width.word.addrs at_) [b0, b1, b2, b3] →
        Writes i s rd ((b3 ++ b2 ++ b1 ++ b0).setWidth 32) next
    let stores (at_ : Word) (w : Width) (i : Instr) (v next : Word) : Prop :=
      SplitReady s .store at_ w → ∃ t, exec i s = .next t ∧ StoredAt s t at_ w v ∧ (∀ j, t.reg j = s.reg j) ∧ t.pc = next ∧
        SameButStore s t ∧
          (t.reservation = s.reservation ∨
            (t.reservation = none ∧ ∃ g, s.reservation = some g ∧ ∃ b ∈ w.addrs at_, s.sameGranule g b = true))
    let zext : Word := (b1 ++ b0).setWidth 32
    half a (.lh rd rs1 imm) rd ((b1 ++ b0).signExtend 32) next4 ∧
    half a (.lhu rd rs1 imm) rd zext next4 ∧
    half ax (.cLhu rd rs1 off) rd zext next2 ∧
    half axsp (.cLhusp rd off) rd zext next2 ∧
    word a (.lw rd rs1 imm) rd next4 ∧
    word ac (.cLw q r o7) (shortReg q) next2 ∧
    word asp (.cLwsp rd o8) rd next2 ∧
    stores a .half (.sh rs2 rs1 imm) (s.reg rs2) next4 ∧
    stores ax .half (.cSh rs2 rs1 off) (s.reg rs2) next2 ∧
    stores axsp .half (.cShsp rs2 off) (s.reg rs2) next2 ∧
    stores a .word (.sw rs2 rs1 imm) (s.reg rs2) next4 ∧
    stores ac .word (.cSw q r o7) (s.reg (shortReg q)) next2 ∧
    stores asp .word (.cSwsp rs2 o8) (s.reg rs2) next2

/-- Accesses that PMP denies or that nothing answers (20 R104 to R107, R120, R136; 92 D23). A load, store or AMO, aligned or
split into bytes, is a load or store access fault at the instruction's address, a fault of the run; that a store to ROM is
one is the model's choice (DEDUCED, log 50). So is an `sc.w` with its reservation, or it fails as it may anywhere (43 R313,
R317). A parcel of the instruction is the precise instruction access fault, code 1, with the
parcel's address in `mtval` (60 R521), while NMI_IE is off; with it on, on V3B/C, it is entered through number 2, as the exception
or as NMI, with `mcause` 0x80000002 (60 R509): that `mtval` and the active number go with `mcause` is the model's reading (DEDUCED,
log 28). In debug mode a load of each kind, to where nothing answers, ends the program buffer with `cmderr` 3 (61 R630), and of the
registers only its destination may change (20 R120); that the buffer ends there, and `rd` alone is open, is the model's reading
(DEDUCED, log 27), and that an earlier `cmderr` is kept is taken from the debug standard (PRESUMED, log 37). -/
def Obligations.AccessFaults : Prop :=
  ∀ (s : State) (target : Word),
    let denied (k : AccessKind) (bs : List Word) : Prop := s.pmpOk k bs = false ∨ s.target bs = .nothing
    let noStore (bs : List Word) : Prop := denied .store bs ∨ s.target bs = .rom
    let parcelDenied (b : Word) : Prop := s.pmpRelied [b, b + 1#32] = false ∧ denied .fetch [b, b + 1#32]
    let s0 : State := { s with draws := s.draws + 1, pmpBefore := none }
    (∀ (i : Instr) (a : Word) (w : Width), w.aligned a = true → s.debugMode = false →
      (loadsFrom s i = some (a, w) → s.triggered .load a = .pass → denied .load (w.addrs a) →
        exec i s = .fault (.loadAccess a)) ∧
      (storesTo s i = some (a, w) → (∀ rd rs2 rs1 aq rl, i ≠ .scW rd rs2 rs1 aq rl) → s.triggered .store a = .pass →
        noStore (w.addrs a) → exec i s = .fault (.storeAccess a))) ∧
    (∀ (i : Instr) (a : Word) (w : Width), w.aligned a = false → i.feature ≠ .a → s.cfg.misaligned = .split →
      s.debugMode = false →
      (loadsFrom s i = some (a, w) → s.triggered .load a = .pass → (∃ b ∈ w.addrs a, denied .load [b]) →
        (∀ b ∈ w.addrs a, denied .load [b] ∨
          ((s.target [b] = .ram ∨ s.target [b] = .rom) ∧ ∃ v, s.byteAt b = some v)) →
        exec i s = .fault (.loadAccess a)) ∧
      (storesTo s i = some (a, w) → s.triggered .store a = .pass → (∃ b ∈ w.addrs a, noStore [b]) →
        (∀ b ∈ w.addrs a, noStore [b] ∨ s.target [b] = .ram) → exec i s = .fault (.storeAccess a))) ∧
    (∀ (rd rs2 rs1 : Reg) (aq rl : BitVec 1), s.debugMode = false →
      let a : Word := s.reg rs1
      Width.word.aligned a = true → s.reservation = some a → noStore (Width.word.addrs a) →
        exec (.scW rd rs2 rs1 aq rl) s = .fault (.storeAccess a) ∨
          ∃ t, exec (.scW rd rs2 rs1 aq rl) s = .next t ∧ Holds t rd 1#32 ∧ SameRegsBut s t rd ∧ t.pc = s.pc + 4#32 ∧
            SameBytes s t ∧ t = { s with regs := t.regs, pc := t.pc, reservation := none, draws := t.draws }) ∧
    (∀ (rd rs1 : Reg) (q r : CReg) (imm : BitVec 12) (o7 : BitVec 7) (o8 : BitVec 8) (off : Word) (aq rl : BitVec 1),
      s.debugMode = true →
        let ends (i : Instr) (a : Word) (w : Width) (rd : Reg) : Prop :=
          w.aligned a = true → s.target (w.addrs a) = .nothing →
            ∃ t, exec i s = .next t ∧
              t.dm = { s.dm with running := false, cmderr := if s.dm.cmderr = 0#3 then 3#3 else s.dm.cmderr } ∧
                SameRegsBut s t rd ∧ SameBytes s t ∧ t = { s with regs := t.regs, dm := t.dm, draws := t.draws }
        let a : Word := s.reg rs1 + imm.signExtend 32
        let axsp : Word := s.reg 2#5 + off
        ends (.lb rd rs1 imm) a .byte rd ∧ ends (.lbu rd rs1 imm) a .byte rd ∧ ends (.lh rd rs1 imm) a .half rd ∧
          ends (.lhu rd rs1 imm) a .half rd ∧ ends (.lw rd rs1 imm) a .word rd ∧
          ends (.lrW rd rs1 aq rl) (s.reg rs1) .word rd ∧
          ends (.cLw q r o7) (s.reg (shortReg r) + o7.setWidth 32) .word (shortReg q) ∧
          ends (.cLwsp rd o8) (s.reg 2#5 + o8.setWidth 32) .word rd ∧
          ends (.cLbu rd rs1 off) (s.reg rs1 + off) .byte rd ∧ ends (.cLhu rd rs1 off) (s.reg rs1 + off) .half rd ∧
          ends (.cLbusp rd off) axsp .byte rd ∧ ends (.cLhusp rd off) axsp .half rd) ∧
    (Undisturbed s → s.isV3A = false → s.csr.corecfgr.nmiIe = true → TrapReady s 2#8 → TargetIs s 2#8 target →
      (parcelDenied s.pc →
        ∃ t, step s = afterStep (.next t) ∧
          (TrapTaken s0 t false 1#32 3#8 s.pc s.pc target ∨ TrapTaken s0 t true 2#32 2#8 0#32 s.pc target)) ∧
      (∀ p : Half, p.extractLsb' 0 2 = 3#2 → ParcelReady s s.pc p → parcelDenied (s.pc + 2#32) →
        ∃ t, step s = afterStep (.next t) ∧
          (TrapTaken s0 t false 1#32 3#8 (s.pc + 2#32) s.pc target ∨ TrapTaken s0 t true 2#32 2#8 0#32 s.pc target))) ∧
    (Undisturbed s → s.isV3A = true ∨ s.csr.corecfgr.nmiIe = false → ExceptionReady s 1#32 target →
      (parcelDenied s.pc →
        ∃ t, step s = afterStep (.next t) ∧ TrapTaken s0 t false 1#32 3#8 s.pc s.pc target) ∧
      (∀ p : Half, p.extractLsb' 0 2 = 3#2 → ParcelReady s s.pc p → parcelDenied (s.pc + 2#32) →
        ∃ t, step s = afterStep (.next t) ∧ TrapTaken s0 t false 1#32 3#8 (s.pc + 2#32) s.pc target))

/-- Loads of the controller's status registers (60 R542, R543, R554, R555): the enable, pending and active bits of 32
numbers, and one priority byte. -/
def Obligations.PficReads : Prop :=
  ∀ (s : State) (rd rs1 : Reg) (imm : BitVec 12) (x : BitVec 3) (n : IrqNum),
    let a : Word := s.reg rs1 + imm.signExtend 32
    let fixed : List IrqNum := if s.isV3A then [2#8, 3#8] else [2#8, 3#8, 5#8, 8#8, 9#8]
    let bank (base : Word) (bit : IrqNum → Prop) : Prop :=
      a = base + 4#32 * x.setWidth 32 → DeviceReady s .load a .word →
        ∃ v : Word, (∀ k : BitVec 5, v.getLsbD k.toNat = true ↔ bit ((x ++ k).setWidth 8)) ∧
          Writes (.lw rd rs1 imm) s rd v (s.pc + 4#32)
    bank 0xE000E000#32 (fun n => s.pfic.en.getLsbD n.toNat = true ∨ n ∈ fixed) ∧
    bank 0xE000E020#32 (fun n => s.pfic.pend.getLsbD n.toNat = true) ∧
    bank 0xE000E300#32 (fun n => ∃ e ∈ s.nest, e.actidx = n) ∧
    (a = 0xE000E400#32 + n.setWidth 32 → DeviceReady s .load a .byte →
      Writes (.lbu rd rs1 imm) s rd ((s.pfic.prio[n.toNat]'(by have := n.isLt; omega)).setWidth 32) (s.pc + 4#32))

/-- Stores to the set and clear registers (60 R550 to R553, R557, R565), seen after a `fence` (20 R122): a 1 sets or
clears the enable or pending bit of a number that has one, a 0 does nothing; a source that still asserts pends its
number again (log 44). A store that would pend number 3, here or by PFIC_CFGR, is refused (60 R557 item 4, 92 D50). That
bit 4 of PFIC_CFGR, EXCSET, asks for it is the model's choice, by 60 R546 against 92 D9 (DESIGN CHOICE, log 41). -/
def Obligations.PficWrites : Prop :=
  ∀ (s : State) (rs2 rs1 : Reg) (imm : BitVec 12) (x : BitVec 3) (fm pred succ : BitVec 4) (f1 f2 : Reg),
    let a : Word := s.reg rs1 + imm.signExtend 32
    let sel (n : IrqNum) : Prop := n.extractLsb' 5 3 = x ∧ (s.reg rs2).getLsbD (n.extractLsb' 0 5).toNat = true
    let programmable (n : IrqNum) : Prop := n = 12#8 ∨ n = 14#8 ∨ 16 ≤ n.toNat
    let en (u : State) (n : IrqNum) : Prop := u.pfic.en.getLsbD n.toNat = true
    let pend (u : State) (n : IrqNum) : Prop := u.pfic.pend.getLsbD n.toNat = true
    let after (base : Word) (effect : State → Prop) : Prop :=
      a = base + 4#32 * x.setWidth 32 → DeviceReady s .store a .word →
        ∃ t u, exec (.sw rs2 rs1 imm) s = .next t ∧ exec (.fence fm pred succ f1 f2) t = .next u ∧ effect u ∧
          u = { s with pc := s.pc + 8#32, eventPending := u.eventPending, unseen := [],
                       pfic := { s.pfic with en := u.pfic.en, pend := u.pfic.pend } }
    after 0xE000E100#32 (fun u => (∀ n, en u n ↔ en s n ∨ (sel n ∧ programmable n)) ∧ ∀ n, pend u n ↔ pend s n) ∧
    after 0xE000E180#32 (fun u => (∀ n, en u n ↔ en s n ∧ ¬sel n) ∧ ∀ n, pend u n ↔ pend s n) ∧
    (¬sel 3#8 → after 0xE000E200#32
      (fun u => (∀ n, en u n ↔ en s n) ∧ ∀ n, pend u n ↔ pend s n ∨ (sel n ∧ (n = 2#8 ∨ programmable n)))) ∧
    (sel 3#8 → a = 0xE000E200#32 → DeviceReady s .store a .word →
      exec (.sw rs2 rs1 imm) s = .refused .softwarePendedExc) ∧
    (s.isV3A = true → a = 0xE000E048#32 → (s.reg rs2).extractLsb' 16 16 = 0xBCAF#16 → (s.reg rs2).extractLsb' 2 4 = 4#4 →
      DeviceReady s .store a .word → exec (.sw rs2 rs1 imm) s = .refused .softwarePendedExc) ∧
    after 0xE000E280#32
      (fun u => (∀ n, en u n ↔ en s n) ∧ ∀ n, pend u n ↔ (pend s n ∧ ¬sel n) ∨ SourceAsserts s n)

/-- A word stored to a read-write device register is read back by the next load, less the bits the member does not have
(60 R544 to R549, R555, R556; 61 R601, R603, R604). The load after the store sees it because device accesses are performed
in program order (20 R124, log 24). Two clauses are the model's choice (DESIGN CHOICE, log 41): that V3A keeps STE alone of
STK_CTLR (92 D9), and that bit 1 of PFIC_CFGR, NESTCTRL, reads back, which follows 60 R546 against 92 D9, where bits 4 to 1 of
PFIC_CFGR are reserved. -/
def Obligations.DeviceReadBack : Prop :=
  ∀ (s : State) (rs2 rs1 rd : Reg) (imm : BitVec 12) (i : BitVec 2) (k : BitVec 6),
    let a : Word := s.reg rs1 + imm.signExtend 32
    let v := s.reg rs2
    let back (at_ mask : Word) : Prop :=
      a = at_ → DeviceReady s .store a .word → s.pmpOk .load (Width.word.addrs a) = true → s.triggered .load a = .pass →
        ∃ t u, exec (.sw rs2 rs1 imm) s = .next t ∧ exec (.lw rd rs1 imm) t = .next u ∧ Holds u rd (v &&& mask) ∧
          u.pc = s.pc + 8#32 ∧ SameRegsBut s u rd ∧ SameBytes s u
    back 0xE000E040#32 (if s.isV3A then 0xF0#32 else 0xE0#32) ∧
    (s.isV3A = true → back 0xE000E044#32 0xF0000000#32) ∧
    (s.isV3A = true → v.extractLsb' 16 16 = 0xFA05#16 → v.getLsbD 6 = false → back 0xE000E048#32 3#32) ∧
    (s.isV3A = false → back 0xE000E050#32 0xFFFFFFFF#32) ∧
    back (0xE000E060#32 + 4#32 * i.setWidth 32) (if s.isV3A then 0xFF0FFFFF#32 else 0xFFFFFFFF#32) ∧
    back (0xE000E400#32 + 4#32 * k.setWidth 32) (if s.isV3A then 0xF0F0F0F0#32 else 0xE0E0E0E0#32) ∧
    (s.isV3A = true ∨ v.getLsbD 31 = false → back 0xE000ED10#32 0x1E#32) ∧
    back 0xE000F000#32 (if s.isV3A then 1#32 else 0x1F#32) ∧
    (s.isV3A = false → back 0xE000F008#32 0xFFFFFFFF#32) ∧
    (s.isV3A = false → back 0xE000F010#32 0xFFFFFFFF#32)

/-- Every byte of memory outside what an instruction stores stays (40 R211 to R240, 60 R520): all of memory for an
instruction that stores nothing, and for one that stores outside the core's device registers all but the stored bytes.
-/
def Obligations.MemoryFrame : Prop :=
  ∀ (s t : State) (i : Instr), exec i s = .next t →
    (storesTo s i = none → SameBytes s t) ∧
      (∀ a w, storesTo s i = some (a, w) → (∀ b ∈ w.addrs a, isCoreDevice s.cfg b = false) →
        ∀ b : Word, b ∉ w.addrs a → t.byteAt b = s.byteAt b)

/-- `lr.w` (43 R316) on V3A: the word in `rd`, a reservation of its address, nothing else. -/
def Obligations.LoadReserved : Prop :=
  ∀ (s : State) (w : Word) (b0 b1 b2 b3 : Byte), s.isV3A = true →
    let rd := rdOf w
    let a := s.reg (rs1Of w)
    Encodes s w 0x1000202F#32 0xF9F0707F#32 (.lrW rd (rs1Of w) (w.extractLsb' 26 1) (w.extractLsb' 25 1))
      (fun i => Loadable s a .word [b0, b1, b2, b3] →
        ∃ t, exec i s = .next t ∧ Holds t rd ((b3 ++ b2 ++ b1 ++ b0).setWidth 32) ∧ SameRegsBut s t rd ∧
          t.pc = s.pc + 4#32 ∧ SameBytes s t ∧
            t = { s with regs := t.regs, pc := t.pc, reservation := some a })

/-- `sc.w` (43 R313, R317) on V3A, off the devices: without a reservation of exactly its address it fails, storing nothing;
with one, to RAM, it may fail or store; the reservation is gone in every case. With one where no store can land it is a case
of `AccessFaults`. -/
def Obligations.StoreConditional : Prop :=
  ∀ (s : State) (w : Word), s.isV3A = true →
    let rd := rdOf w
    let a := s.reg (rs1Of w)
    let v := s.reg (rs2Of w)
    Encodes s w 0x1800202F#32 0xF800707F#32 (.scW rd (rs2Of w) (rs1Of w) (w.extractLsb' 26 1) (w.extractLsb' 25 1))
      (fun i =>
        (Width.word.aligned a = true → s.target (Width.word.addrs a) ≠ .device → s.target (Width.word.addrs a) ≠ .platform →
          s.reservation ≠ some a →
          ∃ t, exec i s = .next t ∧ Holds t rd 1#32 ∧ SameRegsBut s t rd ∧ t.pc = s.pc + 4#32 ∧ SameBytes s t ∧
            t = { s with regs := t.regs, pc := t.pc, reservation := none }) ∧
        (Storable s a .word → s.reservation = some a →
          ∃ t, exec i s = .next t ∧ SameRegsBut s t rd ∧ t.pc = s.pc + 4#32 ∧ SameButStore s t ∧ t.reservation = none ∧
            ((Holds t rd 0#32 ∧ StoredAt s t a .word v) ∨ (Holds t rd 1#32 ∧ SameBytes s t))))

/-- The nine AMOs (43 R318 to R326) on V3A, on a word of RAM: the old word in `rd`, the new one in memory, both computed
from the values before. -/
def Obligations.AtomicOps : Prop :=
  ∀ (s : State) (w : Word) (b0 b1 b2 b3 : Byte), s.isV3A = true →
    let rd := rdOf w
    let rs1 := rs1Of w
    let rs2 := rs2Of w
    let aq := w.extractLsb' 26 1
    let rl := w.extractLsb' 25 1
    let a := s.reg rs1
    let b := s.reg rs2
    let old : Word := (b3 ++ b2 ++ b1 ++ b0).setWidth 32
    Loadable s a .word [b0, b1, b2, b3] → Storable s a .word →
      Encodes s w 0x0800202F#32 0xF800707F#32 (.amoswapW rd rs2 rs1 aq rl)
        (Atomically s rd a old (b)) ∧
      Encodes s w 0x0000202F#32 0xF800707F#32 (.amoaddW rd rs2 rs1 aq rl)
        (Atomically s rd a old (old + b)) ∧
      Encodes s w 0x2000202F#32 0xF800707F#32 (.amoxorW rd rs2 rs1 aq rl)
        (Atomically s rd a old (old ^^^ b)) ∧
      Encodes s w 0x6000202F#32 0xF800707F#32 (.amoandW rd rs2 rs1 aq rl)
        (Atomically s rd a old (old &&& b)) ∧
      Encodes s w 0x4000202F#32 0xF800707F#32 (.amoorW rd rs2 rs1 aq rl)
        (Atomically s rd a old (old ||| b)) ∧
      Encodes s w 0x8000202F#32 0xF800707F#32 (.amominW rd rs2 rs1 aq rl)
        (Atomically s rd a old (if old.toInt < b.toInt then old else b)) ∧
      Encodes s w 0xA000202F#32 0xF800707F#32 (.amomaxW rd rs2 rs1 aq rl)
        (Atomically s rd a old (if old.toInt < b.toInt then b else old)) ∧
      Encodes s w 0xC000202F#32 0xF800707F#32 (.amominuW rd rs2 rs1 aq rl)
        (Atomically s rd a old (if old.toNat < b.toNat then old else b)) ∧
      Encodes s w 0xE000202F#32 0xF800707F#32 (.amomaxuW rd rs2 rs1 aq rl)
        (Atomically s rd a old (if old.toNat < b.toNat then b else old))

/-- Where an atomic stops: a misaligned one traps whatever `MISALIGNED_POLICY` says (43 R315, 20 R108), `lr.w` with code 4,
`sc.w` and the AMOs with code 6, the address in `mtval`; one on a device register of the core, which V3A alone could run,
is refused (70 R677, 92 D33; of 43 R327, which runs AMOs on plain registers, see log 36). -/
def Obligations.AtomicStops : Prop :=
  ∀ (s : State) (i : Instr) (a target : Word), i.feature = .a →
    (Width.word.aligned a = false →
      (loadsFrom s i = some (a, .word) → ExceptionReady s 4#32 target → TakesException s (exec i s) 4#32 a target) ∧
        (storesTo s i = some (a, .word) → ExceptionReady s 6#32 target → TakesException s (exec i s) 6#32 a target)) ∧
    (Width.word.aligned a = true → s.isV3A = true → s.target (Width.word.addrs a) = .device →
      loadsFrom s i = some (a, .word) ∨ storesTo s i = some (a, .word) → exec i s = .refused (.atomicOnDevice a))

/-- The six CSR instructions (41 R261, R263 to R268): the old value in `rd`, the new one written by the register's own
rule; the set and clear forms with x0 or 0 do not write; a reserved FETCH_MODE is refused (10 R62). -/
def Obligations.CsrInstructions : Prop :=
  ∀ (s : State) (w : Word),
    let rd := rdOf w
    let csr : CsrNum := bitsI w
    let rs1 := rs1Of w
    let x := s.reg rs1
    let z : Word := rs1.setWidth 32
    let old := s.csrRead csr
    Encodes s w 0x00001073#32 0x0000707F#32 (.csrrw rd csr rs1)
      (CsrCompletes s rd csr true (x)) ∧
    Encodes s w 0x00002073#32 0x0000707F#32 (.csrrs rd csr rs1)
      (CsrCompletes s rd csr (rs1 != 0#5) (old ||| x)) ∧
    Encodes s w 0x00003073#32 0x0000707F#32 (.csrrc rd csr rs1)
      (CsrCompletes s rd csr (rs1 != 0#5) (old &&& ~~~x)) ∧
    Encodes s w 0x00005073#32 0x0000707F#32 (.csrrwi rd csr rs1)
      (CsrCompletes s rd csr true (z)) ∧
    Encodes s w 0x00006073#32 0x0000707F#32 (.csrrsi rd csr rs1)
      (CsrCompletes s rd csr (rs1 != 0#5) (old ||| z)) ∧
    Encodes s w 0x00007073#32 0x0000707F#32 (.csrrci rd csr rs1)
      (CsrCompletes s rd csr (rs1 != 0#5) (old &&& ~~~z))

/-- A CSR instruction that the access check of 41 R262 denies takes the illegal instruction exception with the instruction
word in `mtval`, before any effect. -/
def Obligations.CsrDeniedTraps : Prop :=
  ∀ (s : State) (w target : Word), ExceptionReady s 2#32 target →
    let rd := rdOf w
    let csr : CsrNum := bitsI w
    let rs1 := rs1Of w
    Encodes s w 0x00001073#32 0x0000707F#32 (.csrrw rd csr rs1)
      (fun i => CsrDenied s csr true → TakesException s (exec i s) 2#32 w target) ∧
    Encodes s w 0x00002073#32 0x0000707F#32 (.csrrs rd csr rs1)
      (fun i => CsrDenied s csr (rs1 != 0#5) → TakesException s (exec i s) 2#32 w target) ∧
    Encodes s w 0x00003073#32 0x0000707F#32 (.csrrc rd csr rs1)
      (fun i => CsrDenied s csr (rs1 != 0#5) → TakesException s (exec i s) 2#32 w target) ∧
    Encodes s w 0x00005073#32 0x0000707F#32 (.csrrwi rd csr rs1)
      (fun i => CsrDenied s csr true → TakesException s (exec i s) 2#32 w target) ∧
    Encodes s w 0x00006073#32 0x0000707F#32 (.csrrsi rd csr rs1)
      (fun i => CsrDenied s csr (rs1 != 0#5) → TakesException s (exec i s) 2#32 w target) ∧
    Encodes s w 0x00007073#32 0x0000707F#32 (.csrrci rd csr rs1)
      (fun i => CsrDenied s csr (rs1 != 0#5) → TakesException s (exec i s) 2#32 w target)

/-- The access check (41 R262), its six steps: allowed, illegal, or refused; user mode reaches `gintenr` and `intsyscr`
only. -/
def Obligations.CsrAccessCheck : Prop :=
  ∀ (s : State) (a : CsrNum) (writes : Bool),
    (s.csrCheck a writes = .ok ↔ CsrAllowed s a writes) ∧
      (s.csrCheck a writes = .illegal ↔ CsrDenied s a writes) ∧
        (¬CsrAllowed s a writes → ¬CsrDenied s a writes →
          s.csrCheck a writes = .refused (if s.isV3A then .vendorCsrOnV3A a else .triggerWrite a)) ∧
          (s.priv = .user → s.debugMode = false → CsrAllowed s a writes → a = 0x800#12 ∨ a = 0x804#12)

/-- What a CSR reads after `CSR[csr] <- v` (41 R273), register by register; every other CSR reads as before. Where the
rule says draw, nothing is said of the value (log 32). A reserved FETCH_MODE written to `corecfgr` is refused (10 R62, 92
D9). That `intsyscr` keeps PMTCFG with INESTEN before version 1.0 is the model's reading of 92 D31 (DESIGN CHOICE, log 7). -/
def Obligations.CsrWriteRules : Prop :=
  ∀ (s : State) (a : CsrNum) (v : Word), s.level ≤ 3 →
    (a = 0xBC0#12 → v.getLsbD 1 = true → s.csrWrite a v = .error .reservedFetchMode) ∧
    ((a = 0xBC0#12 → v.getLsbD 1 = false) → ∃ u, s.csrWrite a v = .ok u ∧
      let old := s.csrRead a
      let new := u.csrRead a
      (a ∈ [0x340#12, 0x341#12, 0x342#12, 0x343#12, 0x7A2#12, 0x7B1#12, 0x7B2#12, 0x7B3#12] → new = v) ∧
      (a = 0x300#12 → new &&& 0xFFFFE7FF#32 = v &&& 0x88#32 ∧
        (v.extractLsb' 11 2 = 0#2 ∨ v.extractLsb' 11 2 = 3#2 → new &&& 0x1800#32 = v &&& 0x1800#32) ∧
          (new &&& 0x1800#32 = 0#32 ∨ new &&& 0x1800#32 = 0x1800#32)) ∧
      (a = 0x305#12 → new = v &&& (if s.isV3A then 0xFFFFFC01#32 else 0xFFFFFC03#32)) ∧
      (a = 0x3A0#12 → ∀ k : Fin 4,
        let o := old.extractLsb' (8 * k.val) 8
        let n := new.extractLsb' (8 * k.val) 8
        let b := v.extractLsb' (8 * k.val) 8
        (o.getLsbD 7 = true → n = o) ∧
          (o.getLsbD 7 = false → n &&& 0xF8#8 = b &&& 0x98#8 ∧ (n.getLsbD 1 = true → n.getLsbD 0 = true) ∧
            (b.getLsbD 0 = true ∨ b.getLsbD 1 = false → n &&& 7#8 = b &&& 7#8))) ∧
      (∀ k : Fin 4, a = 0x3B0#12 + BitVec.ofNat 12 k.val →
        if s.pmp.cfg[k].l = true ∨ ∃ j : Fin 4, j.val = k.val + 1 ∧ s.pmp.cfg[j].l = true ∧ s.pmp.cfg[j].a = .tor then
          new = old
        else new &&& 0x3FFFFFFF#32 = v &&& 0x3FFFFFFF#32) ∧
      (a = 0x7A0#12 → new = v &&& 3#32) ∧
      (a = 0x7A1#12 → new = 0x2BE00000#32 ||| (v &&& 0x10CF#32)) ∧
      (a = 0x7B0#12 → new &&& 0xFFFFFFFC#32 = 0x40000000#32 ||| (v &&& 0x9A04#32) ||| (old &&& 0x1C0#32) ∧
        (v.extractLsb' 0 2 = 0#2 ∨ v.extractLsb' 0 2 = 3#2 → new &&& 3#32 = v &&& 3#32)) ∧
      (a = 0x800#12 →
        new = if s.csr.corecfgr.ieRemapEn then (old &&& 0xFFFFFF77#32) ||| (v &&& 0x88#32) else old) ∧
      (a = 0x804#12 →
        new &&& 0x7FFFFFFF#32 =
            (old &&& 0x20#32) ||| (v &&& 0x21#32) ||| ((if 1 ≤ s.cfg.coreMajor.toNat then v else old) &&& 0xE#32) ∧
          (s.priv = .user → new.getLsbD 31 = old.getLsbD 31) ∧
            (old.getLsbD 31 = false → v.getLsbD 31 = false → new.getLsbD 31 = false)) ∧
      (a = 0xBC0#12 → new = v &&& 0xAD#32) ∧
      (a = 0xBC1#12 →
        new = (old &&& ~~~v &&& 0x40000000#32) ||| (old &&& 0xF00#32) ||| (if v &&& 3#32 = 0#32 then 0#32 else 1#32)) ∧
      (a = 0x301#12 ∨ a.extractLsb' 10 2 = 3#2 → u = s) ∧
      (∀ b, b ≠ a → ¬(a = 0x300#12 ∧ b = 0x800#12) → ¬(a = 0x800#12 ∧ b = 0x300#12) →
        ¬(a = 0x7A0#12 ∧ (b = 0x7A1#12 ∨ b = 0x7A2#12)) → u.csrRead b = s.csrRead b))

/-- A locked PMP region (20 R139) stays: no instruction changes its configuration, its address, or the lower bound of a
locked TOR region; only the store that asks for a system reset clears it, with the rest of the machine. Of the PMP after the
reset it says the configurations alone: the addresses are unspecified (10 R70, 70 R657). -/
def Obligations.PmpLockHolds : Prop :=
  ∀ (s t : State) (i : Instr) (k : Fin 4), exec i s = .next t → s.pmp.cfg[k].l = true →
    (t.pmp.cfg[k] = s.pmp.cfg[k] ∧ t.pmp.addr[k] = s.pmp.addr[k] ∧
        ∀ j : Fin 4, j.val + 1 = k.val → s.pmp.cfg[k].a = .tor → t.pmp.addr[j] = s.pmp.addr[j]) ∨
      ((∀ j : Fin 4, t.pmp.cfg[j] = Pmp.reset.cfg[j]) ∧ t.pc = s.cfg.resetPc ∧ t.nest = [] ∧ t.priv = .machine ∧ t.csr = Csrs.reset ∧
        storesTo s i = some (if s.isV3A then 0xE000E048#32 else 0xE000ED10#32, .word))

/-- Which bytes a PMP region holds, by its mode (20 R132), and which region decides a byte (20 R135). -/
def Obligations.PmpRegionMatch : Prop :=
  ∀ (p : Pmp) (i : Fin 4) (y : Word),
    let y2 := (y.extractLsb' 2 30).toNat
    let top (j : Fin 4) : Nat := (p.addr[j].extractLsb' 0 30).toNat
    (p.cfg[i].a = .off → p.contains i y = false) ∧
    (p.cfg[i].a = .tor → i.val = 0 → (p.contains i y = true ↔ y2 < top i)) ∧
    (p.cfg[i].a = .tor → ∀ j : Fin 4, j.val + 1 = i.val → (p.contains i y = true ↔ top j ≤ y2 ∧ y2 < top i)) ∧
    (p.cfg[i].a = .na4 → (p.contains i y = true ↔ y2 = top i)) ∧
    (p.cfg[i].a = .napot → ∀ k ≤ 32, (∀ j < k, p.addr[i].getLsbD j = true) → (k = 32 ∨ p.addr[i].getLsbD k = false) →
      (p.contains i y = true ↔ 29 ≤ k ∨ ∀ j, k + 3 ≤ j → j < 32 → y.getLsbD j = p.addr[i].getLsbD (j - 2))) ∧
    (p.region y = some i ↔ p.contains i y = true ∧ ∀ j : Fin 4, j < i → p.contains j y = false) ∧
    (p.region y = none ↔ ∀ j : Fin 4, p.contains j y = false)

/-- The PMP check (20 R136, R137): the deciding region's permission, or machine mode with the region unlocked; where no
region matches, machine mode only (92 D24); all bytes allowed and decided alike. On V3B/C, outside debug mode, the accesses
of a state are checked so, in its mode and by its own PMP registers; V3A has no PMP (92 D25). -/
def Obligations.PmpDecides : Prop :=
  ∀ (p : Pmp) (priv : Priv) (k : AccessKind) (y : Word) (ys : List Word),
    (∀ i, p.region y = some i →
      (p.allows priv k [y] = true ↔
        (priv = .machine ∧ p.cfg[i].l = false) ∨ (k = .fetch ∧ p.cfg[i].x = true) ∨ (k = .load ∧ p.cfg[i].r = true) ∨
          (k = .store ∧ p.cfg[i].w = true))) ∧
    (p.region y = none → (p.allows priv k [y] = true ↔ priv = .machine)) ∧
    (p.allows priv k ys = true ↔
      (∀ z ∈ ys, p.allows priv k [z] = true) ∧ ∀ z ∈ ys, ∀ z' ∈ ys, p.region z = p.region z') ∧
    (∀ s : State, s.isV3A = false → s.debugMode = false → s.pmpOk k ys = s.pmp.allows s.priv k ys) ∧
    (∀ s : State, s.isV3A = true → s.pmpOk k ys = true)

/-- `ecall` (40 R239): the environment call of the present mode, code 8 or 11, at its own address, `mtval` 0. -/
def Obligations.EnvironmentCall : Prop :=
  ∀ (s : State) (target : Word),
    let code : Word := if s.priv = .user then 8#32 else 11#32
    decode s.cfg (.full 0x00000073#32) = .instr .ecall ∧
      (ExceptionReady s code target → TakesException s (exec .ecall s) code 0#32 target)

/-- The two sources of a breakpoint (60 R506). `ebreak` and `c.ebreak` (40 R240, 44 R366, 61 R630, R631): the end of a program
buffer, the entry of debug mode with cause 1 where `dcsr` asks for it, else the breakpoint exception with `mtval` 0. A
hardware trigger that fires with ACTION 0 (61 R634): the breakpoint exception with the pc in `mepc` and `mtval`, before the
instruction for an execute trigger, and with the access performed or not for a data trigger (92 D53): the registers together
are the old ones, or those that the load leaves where no trigger is armed; so are the bytes of a store. That 0x9002 is
`c.ebreak` is said where no supplied XW row has that parcel whole as its match (30 R156). -/
def Obligations.Breakpoints : Prop :=
  ∀ (s : State) (target : Word) (i : Instr),
    let asked := s.cfg.debuggerPresent && (if s.priv = .machine then s.dbg.dcsr.ebreakm else s.dbg.dcsr.ebreaku)
    let caught (t : State) : Prop :=
      t.csr.mcause = 3#32 ∧ t.csr.mepc = s.pc ∧ t.csr.mtval = s.pc ∧ t.csr.mstatus.mpie = s.csr.mstatus.mie ∧
        t.csr.mstatus.mpp = s.priv ∧ t.priv = .machine ∧ t.pc = target ∧
          t.nest = ⟨3#8, s.hpeEnabled, s.trapCsrs⟩ :: s.nest
    let unarmed : State := { s with trig := Triggers.reset }
    decode s.cfg (.full 0x00100073#32) = .instr .ebreak ∧
    (KeepsParcel s.cfg 0x9002#16 16 → decode s.cfg (.half 0x9002#16) = .instr .cEbreak) ∧
    (i = .ebreak ∨ i = .cEbreak →
      (s.debugMode = true → exec i s = .next { s with dm := { s.dm with running := false } }) ∧
      (s.debugMode = false → asked = true →
        ∃ t, exec i s = .next t ∧ t.debugMode = true ∧ t.dbg.dpc = s.pc ∧ t.dbg.dcsr.cause = 1#3 ∧
          t.dbg.dcsr.prv = s.priv ∧ t.priv = .machine ∧
            t = { s with debugMode := true, sleep := none, priv := .machine,
                         dbg := { s.dbg with dpc := t.dbg.dpc,
                                             dcsr := { s.dbg.dcsr with cause := t.dbg.dcsr.cause,
                                                                       prv := t.dbg.dcsr.prv } },
                         pmpBefore := none }) ∧
      (asked = false → ExceptionReady s 3#32 target → TakesException s (exec i s) 3#32 0#32 target)) ∧
    (ExceptionReady s 3#32 target →
      (Undisturbed unarmed → TriggerFires s .fetch s.pc →
        ∃ t, step s = afterStep (.next t) ∧
          TrapTaken { s with draws := s.draws + 1 } t false 3#32 3#8 s.pc s.pc target) ∧
      (∀ a w, loadsFrom s i = some (a, w) → i.feature ≠ .a → TriggerFires s .load a →
        ∃ t, exec i s = .next t ∧ caught t ∧ SameBytes s t ∧
          ((∀ j, t.reg j = s.reg j) ∨ ∃ v, exec i unarmed = .next v ∧ ∀ j, t.reg j = v.reg j)) ∧
      (∀ (rd rs1 : Reg) (imm : BitVec 12) (b0 b1 b2 b3 : Byte),
        let a : Word := s.reg rs1 + imm.signExtend 32
        TriggerFires s .load a → Loadable unarmed a .word [b0, b1, b2, b3] →
          ∃ t, exec (.lw rd rs1 imm) s = .next t ∧ SameRegsBut s t rd ∧
            (t.reg rd = s.reg rd ∨ Holds t rd ((b3 ++ b2 ++ b1 ++ b0).setWidth 32))) ∧
      (∀ a w, storesTo s i = some (a, w) → i.feature ≠ .a → TriggerFires s .store a → s.csr.mtvec.mode1 = false →
        (∀ b ∈ w.addrs a, isCoreDevice s.cfg b = false) →
        ∃ t, exec i s = .next t ∧ caught t ∧ (∀ j, t.reg j = s.reg j) ∧
          (∀ b : Word, b ∉ w.addrs a → t.byteAt b = s.byteAt b) ∧
            (SameBytes s t ∨ ∃ v, exec i unarmed = .next v ∧ SameBytes v t)) ∧
      (∀ (rs2 rs1 : Reg) (imm : BitVec 12),
        let a : Word := s.reg rs1 + imm.signExtend 32
        TriggerFires s .store a → Storable unarmed a .word → s.csr.mtvec.mode1 = false →
          ∃ t, exec (.sw rs2 rs1 imm) s = .next t ∧ (SameBytes s t ∨ StoredAt s t a .word (s.reg rs2))))

/-- An eligible interrupt is taken at the boundary (60 R512, R513, R520 to R524): its number in `mcause`, the next
instruction's address in `mepc`; the pending bit clears if `PEND_CLEAR_ON_ENTRY` says so (60 R565, log 10). -/
def Obligations.InterruptEntry : Prop :=
  ∀ (s : State) (n : IrqNum) (target : Word) (wake : Bool) (rest : List Boundary), s.env = ⟨[], false, wake⟩ :: rest →
    s.dm.ndmreset = false → s.dm.haltreq = false → s.sleep = none → s.pending 3#8 = false →
      (s.dbg.dcsr.step = true → s.dbg.dcsr.stepie = true) → s.selectInterrupt = some n → TrapReady s n → TargetIs s n target →
        let s0 : State := { s with env := rest, draws := s.draws + 1 }
        ∃ t, step s = afterStep (.next t) ∧ TrapTaken s0 t true (n.setWidth 32) n 0#32 s.pc target ∧
          ∀ m : IrqNum,
            (t.pfic.pend.getLsbD m.toNat = true ↔
              if s.cfg.pendClearOnEntry then (m ≠ n ∧ s.pfic.pend.getLsbD m.toNat = true) ∨ SourceAsserts s m
              else s.pfic.pend.getLsbD m.toNat = true)

/-- `SelectInterrupt` (60 R563): NMI first, whatever the global gate; then, with the gate open, the eligible number of
least priority value, the least number among equals. `stepie` 0 blocks interrupts while stepping. -/
def Obligations.InterruptChoice : Prop :=
  ∀ s : State,
    let nmi : Prop := s.pfic.pend.getLsbD 2 = true ∧ (∀ e ∈ s.nest, e.actidx ≠ 2#8) ∧ s.level ≤ 2
    let gate : Prop := s.csr.mstatus.mie = true ∧ (s.isV3A = true ∨ s.csr.intsyscr.gihwstknen = false)
    (nmi → s.selectInterrupt = some 2#8) ∧
    (¬nmi → (¬gate ∨ s.debugMode = true) → s.selectInterrupt = none) ∧
    (¬nmi → gate → s.debugMode = false →
      (s.selectInterrupt = none ↔ ∀ n, ¬Eligible s n) ∧
        ∀ n,
          (s.selectInterrupt = some n ↔
            Eligible s n ∧
              ∀ m, Eligible s m →
                (s.prioOf n).toNat < (s.prioOf m).toNat ∨ (s.prioOf n = s.prioOf m ∧ n.toNat ≤ m.toNat))) ∧
    (s.dbg.dcsr.step = true → s.dbg.dcsr.stepie = false → ∀ d n t, s.awakeTurn d ≠ .interrupt n t)

/-- A vector-table-free channel that names the interrupt gives its target whatever `mtvec` says (60 R560); on V3A under
the default `V3A_VTF_CHANNEL_ON` (92 D28, log 11). All else of the entry is as without it. -/
def Obligations.VtfTarget : Prop :=
  ∀ (s : State) (n : IrqNum) (i : Fin 4), s.deviceQueue = [] → s.level < 2 → s.cfg.vtfRule = .programmable →
    (n = 12#8 ∨ n = 14#8 ∨ 16 ≤ n.toNat) →
      (∀ j : Fin 4,
        ((if s.isV3A then s.pfic.vtfAddr[j].extractLsb' 24 8 = n
          else s.pfic.vtfAddr[j].getLsbD 0 = true ∧ s.pfic.vtfId[j] = n) ↔ j = i)) →
        let entry := s.pfic.vtfAddr[i]
        let target : Word :=
          if s.isV3A then (s.pfic.vtfBase ++ 0#4 ++ entry.extractLsb' 0 24).setWidth 32
          else (entry.extractLsb' 1 31 ++ 0#1).setWidth 32
        target.getLsbD 0 = false →
          ∃ t, s.takeInterrupt n = .next t ∧ TrapTaken s t true (n.setWidth 32) n 0#32 s.pc target

/-- `mret` (41 R269, 60 R526 to R529, R532): illegal in user mode; refused for an odd `mepc` (92 D38), from the overflow
level, and for hardware unstacking without a frame; else the return. That a frame pushed at the entry is dropped where stacking is
off at the `mret` follows 60 R532 against 93 U66 (DEDUCED, log 54). -/
def Obligations.TrapReturn : Prop :=
  ∀ (s : State) (target : Word),
    decode s.cfg (.full 0x30200073#32) = .instr .mret ∧
    (s.priv = .user → ExceptionReady s 2#32 target → TakesException s (exec .mret s) 2#32 0x30200073#32 target) ∧
    (s.priv = .machine → s.deviceQueue = [] →
      (s.csr.mepc.getLsbD 0 = true → exec .mret s = .refused .oddMepc) ∧
      (s.csr.mepc.getLsbD 0 = false →
        (s.level = 3 → exec .mret s = .refused .mretFromOverflow) ∧
        (s.level ≤ 2 → s.hpeEnabled = true → (∃ e rest, s.nest = e :: rest ∧ e.stacked = false) →
          exec .mret s = .refused .unstackWithoutFrame) ∧
        (s.level ≤ 2 → (s.hpeEnabled = true → ∀ e rest, s.nest = e :: rest → e.stacked = true) →
          ∃ t, exec .mret s = .next t ∧ TrapReturned s t)))

/-- Hardware stacking (60 R530 to R532, R520, R526): whatever a handler leaves in the sixteen caller-saved registers,
`mret` gives them back as they were at the `ecall`; the other registers keep what the handler wrote; mode and MIE come
back. -/
def Obligations.HardwareStackRoundTrip : Prop :=
  ∀ (s t h : State) (target : Word),
    let saved : List Reg := [1#5, 5#5, 6#5, 7#5, 10#5, 11#5, 12#5, 13#5, 14#5, 15#5, 16#5, 17#5, 28#5, 29#5, 30#5, 31#5]
    s.hpeEnabled = true → ExceptionReady s (if s.priv = .user then 8#32 else 11#32) target → exec .ecall s = .next t →
      h = { t with regs := h.regs, pc := h.pc, mem := h.mem, stale := h.stale, unseen := h.unseen,
                   csr := { t.csr with mscratch := h.csr.mscratch, mepc := h.csr.mepc } } →
        h.csr.mepc.getLsbD 0 = false →
          ∃ u, exec .mret h = .next u ∧ (∀ j ∈ saved, u.reg j = s.reg j) ∧ (∀ j, j ∉ saved → u.reg j = h.reg j) ∧
            u.pc = h.csr.mepc ∧ u.priv = s.priv ∧ u.csr.mstatus.mie = s.csr.mstatus.mie ∧ u.nest = s.nest

/-- The overflow state (60 R537): an exception, or NMI, in a level-2 handler enters level 3 on V3B/C, sets NEST_OV and pushes
no frame; V3A refuses it (92 D48); a further exception and `mret` are refused. `ecall` is stated as an instruction, the other
exceptions as what raises them; the access faults of data are faults of the run, and an instruction access fault goes by NMI
while NMI_IE is on. -/
def Obligations.OverflowState : Prop :=
  ∀ (s : State) (e : Exc) (info target : Word), s.deviceQueue = [] → s.debugMode = false →
    let code : Word := if s.priv = .user then 8#32 else 11#32
    let trapped : Prop :=
      e ≠ .loadAccess ∧ e ≠ .storeAccess ∧ (e = .instrAccess → s.isV3A = true ∨ s.csr.corecfgr.nmiIe = false)
    (s.level = 2 → s.isV3A = true →
      exec .ecall s = .refused .thirdLevelOnV3A ∧ (trapped → s.raise e info = .refused .thirdLevelOnV3A) ∧
        s.takeInterrupt 2#8 = .refused .thirdLevelOnV3A) ∧
    (s.level = 2 → s.isV3A = false →
      (s.vtfMatches (vectorOf s.isV3A code) = [] → TargetIs s (vectorOf s.isV3A code) target →
        ∃ t, exec .ecall s = .next t ∧ Overflowed s t code 3#8 0#32 target) ∧
      (trapped → s.vtfMatches (vectorOf s.isV3A e.code) = [] → TargetIs s (vectorOf s.isV3A e.code) target →
        ∃ t, s.raise e info = .next t ∧ Overflowed s t e.code 3#8 info target) ∧
      (s.vtfMatches 2#8 = [] → TargetIs s 2#8 target →
        ∃ t, s.takeInterrupt 2#8 = .next t ∧ Overflowed s t 0x80000002#32 2#8 0#32 target)) ∧
    (s.level = 3 → s.isV3A = false → exec .ecall s = .refused .trapInOverflow ∧
      (trapped → s.raise e info = .refused .trapInOverflow)) ∧
    (s.level = 3 → s.priv = .machine → s.csr.mepc.getLsbD 0 = false → exec .mret s = .refused .mretFromOverflow)

/-- `wfi` (41 R270, 61 R611, R613) moves on and sleeps, as a WFE if WFITOWFE says so, not in debug mode; `fence` (40 R238)
lets every device write take effect and makes every store visible to the debug module; `fence.i` (41 R271) makes every store
visible to fetch. -/
def Obligations.WaitAndFences : Prop :=
  ∀ (s : State) (w : Word),
    let next : Word := s.pc + 4#32
    let fm : BitVec 4 := w.extractLsb' 28 4
    let pred : BitVec 4 := w.extractLsb' 24 4
    let succ : BitVec 4 := w.extractLsb' 20 4
    decode s.cfg (.full 0x10500073#32) = .instr .wfi ∧
    (s.deviceQueue = [] →
      exec .wfi s =
        .next
          (if s.debugMode then { s with pc := next }
            else if s.pfic.wfitowfe then
              (if s.eventPending then { s with pc := next, eventPending := false }
                else { s with pc := next, sleep := some .wfe })
            else { s with pc := next, sleep := some .wfi })) ∧
    Encodes s w 0x0000000F#32 0x0000707F#32 (.fence fm pred succ (rs1Of w) (rdOf w))
      (fun i => (s.deviceQueue = [] → exec i s = .next { s with pc := next, unseen := [] }) ∧
        ∃ t, exec i s = .next t ∧ t.deviceQueue = [] ∧ t.unseen = [] ∧ t.pc = next ∧ (∀ j, t.reg j = s.reg j) ∧
          SameBytes s t) ∧
    Encodes s w 0x0000100F#32 0x0000707F#32 (.fenceI (bitsI w) (rs1Of w) (rdOf w))
      (fun i => exec i s = .next { s with pc := next, stale := [] })

/-- A sleeping core (61 R611 to R613): asleep without a cause; woken by a pending, enabled interrupt, whose handler runs
before the next instruction if it can be taken, and going on after the `wfi` if it cannot (92 D15). Which pending, enabled
interrupt is a cause is the model's reading of R611 (DEDUCED, log 23): the threshold counts, nesting and active traps do not.
So is that an event and an interrupt at one boundary leave the cause free (`wake`). -/
def Obligations.SleepAndWake : Prop :=
  ∀ (s : State) (k : SleepKind) (d wake : Bool) (rest : List Boundary), s.env = ⟨[], d, wake⟩ :: rest → s.sleep = some k →
    s.dm.ndmreset = false → s.debugMode = false → s.dm.haltreq = false → s.pending 3#8 = false →
      let s0 : State := { s with env := rest, draws := s.draws + 1 }
      let cause : Prop :=
        s.pending 2#8 = true ∨
          ∃ n : IrqNum, (n = 12#8 ∨ n = 14#8 ∨ 16 ≤ n.toNat) ∧ s.pending n = true ∧ s.enabled n = true ∧
            (s.pfic.threshold = 0#8 ∨ (s.prioOf n).toNat < s.pfic.threshold.toNat)
      let event : Prop := k = .wfe ∧ s.eventPending = true
      (¬cause → ¬event → wake = false → step s = .next s0) ∧
      (cause → ¬(event ∧ wake = true) → s.selectInterrupt = none →
        step s = afterStep (State.runInstr { s0 with sleep := none })) ∧
      (cause → ¬(event ∧ wake = true) → (s.dbg.dcsr.step = true → s.dbg.dcsr.stepie = true) →
        ∀ (n : IrqNum) (target : Word), s.selectInterrupt = some n → TrapReady s n → TargetIs s n target →
          ∃ t, step s = afterStep (.next t) ∧
            TrapTaken { s0 with sleep := none } t true (n.setWidth 32) n 0#32 s.pc target) ∧
      (event → ¬cause ∨ wake = true → s.selectInterrupt = none →
        step s = afterStep (State.runInstr { s0 with sleep := none, eventPending := false }))

/-- A SysTick tick (61 R605, R606): V3A counts 64 bits up and pends 12 on a match; V3B/C count 32 bits up or down with
reload, set CNTIF, and pend 12 while STIE. The tick of the reload is the spec's inference. Stopped, nothing happens.
-/
def Obligations.SysTickTick : Prop :=
  ∀ s : State, s.dm.ndmreset = false →
    let stopped : Prop := s.stk.ste = false ∨ (s.debugMode = true ∧ s.dbg.dcsr.stoptime = true)
    let t := s.tick
    s.applyAct (.chore .tick) = .ok t ∧
    (stopped → t = s) ∧
    (¬stopped → s.isV3A = true →
      t.stk.cntHi ++ t.stk.cnt = (s.stk.cntHi ++ s.stk.cnt) + 1#64 ∧ t.stk.cmp = s.stk.cmp ∧ t.stk.cmpHi = s.stk.cmpHi ∧
        t.stk.ste = true ∧
          (t.pending 12#8 = true ↔
            s.pending 12#8 = true ∨ t.stk.cntHi ++ t.stk.cnt = s.stk.cmpHi ++ s.stk.cmp)) ∧
    (¬stopped → s.isV3A = false →
      t.stk.cnt =
          (if s.stk.mode then (if s.stk.stre = true ∧ s.stk.cnt = 0#32 then s.stk.cmp else s.stk.cnt - 1#32)
            else if s.stk.stre = true ∧ s.stk.cnt = s.stk.cmp then 0#32 else s.stk.cnt + 1#32) ∧
        (t.stk.cntif = true ↔ s.stk.cntif = true ∨ t.stk.cnt = (if s.stk.mode then 0#32 else s.stk.cmp)) ∧
          (t.pending 12#8 = true ↔ s.pending 12#8 = true ∨ (s.stk.stie = true ∧ t.stk.cntif = true))) ∧
    (∀ n : IrqNum, n ≠ 12#8 → n ≠ 14#8 → t.pending n = s.pending n) ∧ (∀ j, t.reg j = s.reg j) ∧ SameBytes s t

/-- The debug host (61 R622, R626, R631, R632): a halt request stops the core before its next instruction; the cause is 3, or
1 where that instruction is a breakpoint that `dcsr` sends to debug mode, the cause of higher priority (10 R57; what counts as
standing together is the model's reading, DEDUCED, log 51); a resume puts it back at `dpc` in the mode of `dcsr.prv`; register commands
move `data0` and a halted core's register. -/
def Obligations.DebugControl : Prop :=
  ∀ (s : State) (d wake : Bool) (rest : List Boundary) (i : Reg) (f : Fetched) (next : Instr), s.cfg.debuggerPresent = true →
    s.dm.ndmreset = false →
    let asked : Bool := if s.priv = .machine then s.dbg.dcsr.ebreakm else s.dbg.dcsr.ebreaku
    let halts (cause : BitVec 3) : Prop :=
      ∃ t, step s = .next t ∧ t.debugMode = true ∧ t.sleep = none ∧ t.dbg.dpc = s.pc ∧ t.dbg.dcsr.cause = cause ∧
        t.dbg.dcsr.prv = s.priv ∧ t.priv = .machine ∧ t.nest = s.nest ∧ t.csr = s.csr ∧ (∀ j, t.reg j = s.reg j) ∧
          SameBytes s t
    (s.env = ⟨[.dmiWrite 0x10#7 0x80000001#32], d, wake⟩ :: rest → s.debugMode = false →
      (s.sleep.isSome = true → s.pfic.sleepdeep = false → halts 3#3) ∧
      (s.sleep = none → s.triggered .fetch s.pc = .fire ∨ (s.triggered .fetch s.pc = .pass ∧ asked = false) → halts 3#3) ∧
      (s.sleep = none → s.triggered .fetch s.pc = .pass → FetchReady s f → decode s.cfg f = .instr next →
        halts (if (next = .ebreak ∨ next = .cEbreak) ∧ asked = true then 1#3 else 3#3))) ∧
    (s.debugMode = true → s.dm.running = false → s.dbg.dpc.getLsbD 0 = false →
      ∃ t, s.applyAct (.dmiWrite 0x10#7 0x40000001#32) = .ok t ∧ t.debugMode = false ∧ t.pc = s.dbg.dpc ∧
        t.priv = s.dbg.dcsr.prv ∧ t.dm.resumeack = true ∧ t.csr = s.csr ∧ t.regs = s.regs ∧ SameBytes s t) ∧
    (s.debugMode = true → s.dm.running = false → s.dm.dmactive = true → s.dm.cmderr = 0#3 →
      (∃ t, s.applyAct (.dmiWrite 0x17#7 (0x00221000#32 ||| i.setWidth 32)) = .ok t ∧ t.dm.data0 = s.reg i ∧
        t.dm.cmderr = 0#3 ∧ t.regs = s.regs ∧ t.pc = s.pc) ∧
      ∃ t, s.applyAct (.dmiWrite 0x17#7 (0x00231000#32 ||| i.setWidth 32)) = .ok t ∧ Holds t i s.dm.data0 ∧
        SameRegsBut s t i ∧ t.dm.data0 = s.dm.data0 ∧ t.pc = s.pc)

/-- Right after reset (10 R70, 60 R541, 61 R600, R620), on each member: machine mode at `RESET_PC`, the CSRs at their
reset values, only the fixed enables on, SysTick stopped, nothing active, asleep, reserved or halted. -/
def Obligations.ResetValues : Prop :=
  State.reset.pc = State.reset.cfg.resetPc ∧ State.reset.priv = .machine ∧
    ∀ v : Variant,
      let s : State := { State.reset with cfg := { State.reset.cfg with variant := v } }
      (∀ a ∈ [0x300#12, 0x305#12, 0x340#12, 0x341#12, 0x342#12, 0x343#12, 0x3A0#12, 0x7B1#12, 0x7B2#12, 0x7B3#12, 0x800#12,
          0xBC1#12],
        s.csrRead a = 0#32) ∧
        s.csrRead 0x7A1#12 = 0x2BE00000#32 ∧ s.csrRead 0x7B0#12 = 0x40000000#32 ∧ s.csrRead 0x804#12 = 2#32 ∧
        s.csrRead 0xBC0#12 = 1#32 ∧ (v = .v3a → s.csrRead 0x301#12 = 0x40101105#32) ∧
        s.nest = [] ∧ s.reservation = none ∧ s.sleep = none ∧ s.eventPending = false ∧ s.debugMode = false ∧
        s.devWord (.isr 0#3) = (if s.isV3A then 0xC#32 else 0x32C#32) ∧ s.devWord (.ipr 0#3) = 0#32 ∧
        s.devWord .ithresdr = 0#32 ∧ s.devWord .cfgr = 0#32 ∧ s.devWord .gisr = 0#32 ∧ s.devWord .sctlr = 0#32 ∧
        s.devWord .stkCtlr = 0#32 ∧ s.devWord .stkSr = 0#32 ∧ s.dm.dmcontrol = 0#32 ∧ s.dm.data0 = 0#32 ∧
        s.reg 0#5 = 0#32

/-- A system reset by software (70 R651): the store of SYSRESET with its key on V3A, without one on V3B/C, leaves the
machine at `RESET_PC` in machine mode, and the CSRs, PMP, triggers, debug CSRs, PFIC and SysTick in every field with a stated
reset value as after reset; the debug module keeps its registers; RAM holds nothing, ROM stays (92 D55, log 18). That SYSRESET
acts whatever PFICRESET asks in the same word follows R546's order (log 41), and that a command whose program buffer holds the store
ends with it, so that `busy` reads 0, is the model's choice (DESIGN CHOICE, log 55). -/
def Obligations.SystemReset : Prop :=
  ∀ (s : State) (rs2 rs1 : Reg) (imm : BitVec 12),
    let a : Word := s.reg rs1 + imm.signExtend 32
    let v := s.reg rs2
    DeviceReady s .store a .word → s.dm.haltreq = false →
      ((s.isV3A = true ∧ a = 0xE000E048#32 ∧ v.extractLsb' 16 16 = 0xBEEF#16 ∧ v.getLsbD 7 = true) ∨
        (s.isV3A = false ∧ a = 0xE000ED10#32 ∧ v.getLsbD 31 = true)) →
        ∃ t, exec (.sw rs2 rs1 imm) s = .next t ∧ t.pc = s.cfg.resetPc ∧ CoreIsReset t ∧ PficIsReset t ∧ TimerIsReset t ∧
          t.dm = { s.dm with havereset := true, running := false } ∧ t.cfg = s.cfg ∧
            ∀ b : Word, t.byteAt b = if s.regionOf b = some .rom then s.byteAt b else none

/-- Every step keeps the form of the state (10 R31, 20 R138, 60 R537, R557): memory canonical, the nesting level bounded,
the bits of reserved numbers 0, every PMP region legal; and the parameters. -/
def Obligations.StepKeepsStateForm : Prop :=
  ∀ s t : State, StateForm s → step s = .next t → StateForm t ∧ t.cfg = s.cfg

/-- Every step keeps `pc[0] = 0` (10 R27), for parameters that are even. -/
def Obligations.StepKeepsPcEven : Prop :=
  ∀ s t : State, PcEven s → step s = .next t → PcEven t

/-- The state after reset, on each member, has the form and the even pc that every step keeps. -/
def Obligations.ResetHasInvariants : Prop :=
  ∀ v : Variant,
    let s : State := { State.reset with cfg := { State.reset.cfg with variant := v } }
    StateForm s ∧ PcEven s

/-- What user-mode code cannot do (60 R517, R518, 41 R262): an instruction in user mode leaves the mode only by a trap, a
debug entry or a reset, and while it stays there changes no machine-mode register, protection, trigger or trap state.
-/
def Obligations.UserModeIsolation : Prop :=
  ∀ (s t : State) (i : Instr), s.priv = .user → s.debugMode = false → exec i s = .next t →
    (t.priv = .machine →
      (∃ e, t.nest = e :: s.nest) ∨ t.debugMode = true ∨ (t.pc = s.cfg.resetPc ∧ t.nest = [])) ∧
    (t.priv = .user →
      t.pmp = s.pmp ∧ t.trig = s.trig ∧ t.dbg = s.dbg ∧ t.nest = s.nest ∧ t.hpe = s.hpe ∧ t.debugMode = false ∧
        t.csr.mtvec = s.csr.mtvec ∧ t.csr.mscratch = s.csr.mscratch ∧ t.csr.mepc = s.csr.mepc ∧
          t.csr.mcause = s.csr.mcause ∧ t.csr.mtval = s.csr.mtval ∧ t.csr.mstatus.mpp = s.csr.mstatus.mpp ∧
            t.csr.corecfgr = s.csr.corecfgr ∧ t.csr.inestcr = s.csr.inestcr ∧
              t.csr.intsyscr.lock = s.csr.intsyscr.lock ∧
                (s.csr.corecfgr.ieRemapEn = false → t.csr.mstatus = s.csr.mstatus) ∧
                  (s.csr.intsyscr.lock = true → t.csr.intsyscr = s.csr.intsyscr))
end

