-- ==== Sys2Proof/Laws/State.lean ====
section
/-! SUPPORT. What each elementary update of the state leaves alone: one lemma for each field and update. -/

namespace Sys2Proof.Machine

/-! ### setReg -/

@[simp] theorem State.setReg_cfg (s : State) (i : Reg) (v : Word) : (s.setReg i v).cfg = s.cfg := by
  unfold State.setReg; split <;> rfl
@[simp] theorem State.setReg_pc (s : State) (i : Reg) (v : Word) : (s.setReg i v).pc = s.pc := by
  unfold State.setReg; split <;> rfl
@[simp] theorem State.setReg_priv (s : State) (i : Reg) (v : Word) : (s.setReg i v).priv = s.priv := by
  unfold State.setReg; split <;> rfl
@[simp] theorem State.setReg_csr (s : State) (i : Reg) (v : Word) : (s.setReg i v).csr = s.csr := by
  unfold State.setReg; split <;> rfl
@[simp] theorem State.setReg_pmp (s : State) (i : Reg) (v : Word) : (s.setReg i v).pmp = s.pmp := by
  unfold State.setReg; split <;> rfl
@[simp] theorem State.setReg_trig (s : State) (i : Reg) (v : Word) : (s.setReg i v).trig = s.trig := by
  unfold State.setReg; split <;> rfl
@[simp] theorem State.setReg_dbg (s : State) (i : Reg) (v : Word) : (s.setReg i v).dbg = s.dbg := by
  unfold State.setReg; split <;> rfl
@[simp] theorem State.setReg_nest (s : State) (i : Reg) (v : Word) : (s.setReg i v).nest = s.nest := by
  unfold State.setReg; split <;> rfl
@[simp] theorem State.setReg_hpe (s : State) (i : Reg) (v : Word) : (s.setReg i v).hpe = s.hpe := by
  unfold State.setReg; split <;> rfl
@[simp] theorem State.setReg_pfic (s : State) (i : Reg) (v : Word) : (s.setReg i v).pfic = s.pfic := by
  unfold State.setReg; split <;> rfl
@[simp] theorem State.setReg_stk (s : State) (i : Reg) (v : Word) : (s.setReg i v).stk = s.stk := by
  unfold State.setReg; split <;> rfl
@[simp] theorem State.setReg_dm (s : State) (i : Reg) (v : Word) : (s.setReg i v).dm = s.dm := by
  unfold State.setReg; split <;> rfl
@[simp] theorem State.setReg_reservation (s : State) (i : Reg) (v : Word) : (s.setReg i v).reservation = s.reservation := by
  unfold State.setReg; split <;> rfl
@[simp] theorem State.setReg_sleep (s : State) (i : Reg) (v : Word) : (s.setReg i v).sleep = s.sleep := by
  unfold State.setReg; split <;> rfl
@[simp] theorem State.setReg_eventPending (s : State) (i : Reg) (v : Word) : (s.setReg i v).eventPending = s.eventPending := by
  unfold State.setReg; split <;> rfl
@[simp] theorem State.setReg_debugMode (s : State) (i : Reg) (v : Word) : (s.setReg i v).debugMode = s.debugMode := by
  unfold State.setReg; split <;> rfl
@[simp] theorem State.setReg_mem (s : State) (i : Reg) (v : Word) : (s.setReg i v).mem = s.mem := by
  unfold State.setReg; split <;> rfl
@[simp] theorem State.setReg_stale (s : State) (i : Reg) (v : Word) : (s.setReg i v).stale = s.stale := by
  unfold State.setReg; split <;> rfl
@[simp] theorem State.setReg_unseen (s : State) (i : Reg) (v : Word) : (s.setReg i v).unseen = s.unseen := by
  unfold State.setReg; split <;> rfl
@[simp] theorem State.setReg_deviceQueue (s : State) (i : Reg) (v : Word) : (s.setReg i v).deviceQueue = s.deviceQueue := by
  unfold State.setReg; split <;> rfl
@[simp] theorem State.setReg_pmpBefore (s : State) (i : Reg) (v : Word) : (s.setReg i v).pmpBefore = s.pmpBefore := by
  unfold State.setReg; split <;> rfl
@[simp] theorem State.setReg_env (s : State) (i : Reg) (v : Word) : (s.setReg i v).env = s.env := by
  unfold State.setReg; split <;> rfl
@[simp] theorem State.setReg_draws (s : State) (i : Reg) (v : Word) : (s.setReg i v).draws = s.draws := by
  unfold State.setReg; split <;> rfl

/-! ### setPc -/

@[simp] theorem State.setPc_cfg (s : State) (v : Word) : (s.setPc v).cfg = s.cfg := rfl
@[simp] theorem State.setPc_regs (s : State) (v : Word) : (s.setPc v).regs = s.regs := rfl
@[simp] theorem State.setPc_priv (s : State) (v : Word) : (s.setPc v).priv = s.priv := rfl
@[simp] theorem State.setPc_csr (s : State) (v : Word) : (s.setPc v).csr = s.csr := rfl
@[simp] theorem State.setPc_pmp (s : State) (v : Word) : (s.setPc v).pmp = s.pmp := rfl
@[simp] theorem State.setPc_trig (s : State) (v : Word) : (s.setPc v).trig = s.trig := rfl
@[simp] theorem State.setPc_dbg (s : State) (v : Word) : (s.setPc v).dbg = s.dbg := rfl
@[simp] theorem State.setPc_nest (s : State) (v : Word) : (s.setPc v).nest = s.nest := rfl
@[simp] theorem State.setPc_hpe (s : State) (v : Word) : (s.setPc v).hpe = s.hpe := rfl
@[simp] theorem State.setPc_pfic (s : State) (v : Word) : (s.setPc v).pfic = s.pfic := rfl
@[simp] theorem State.setPc_stk (s : State) (v : Word) : (s.setPc v).stk = s.stk := rfl
@[simp] theorem State.setPc_dm (s : State) (v : Word) : (s.setPc v).dm = s.dm := rfl
@[simp] theorem State.setPc_reservation (s : State) (v : Word) : (s.setPc v).reservation = s.reservation := rfl
@[simp] theorem State.setPc_sleep (s : State) (v : Word) : (s.setPc v).sleep = s.sleep := rfl
@[simp] theorem State.setPc_eventPending (s : State) (v : Word) : (s.setPc v).eventPending = s.eventPending := rfl
@[simp] theorem State.setPc_debugMode (s : State) (v : Word) : (s.setPc v).debugMode = s.debugMode := rfl
@[simp] theorem State.setPc_mem (s : State) (v : Word) : (s.setPc v).mem = s.mem := rfl
@[simp] theorem State.setPc_stale (s : State) (v : Word) : (s.setPc v).stale = s.stale := rfl
@[simp] theorem State.setPc_unseen (s : State) (v : Word) : (s.setPc v).unseen = s.unseen := rfl
@[simp] theorem State.setPc_deviceQueue (s : State) (v : Word) : (s.setPc v).deviceQueue = s.deviceQueue := rfl
@[simp] theorem State.setPc_pmpBefore (s : State) (v : Word) : (s.setPc v).pmpBefore = s.pmpBefore := rfl
@[simp] theorem State.setPc_env (s : State) (v : Word) : (s.setPc v).env = s.env := rfl
@[simp] theorem State.setPc_draws (s : State) (v : Word) : (s.setPc v).draws = s.draws := rfl

/-! ### advance -/

@[simp] theorem State.advance_cfg (s : State) (n : Word) : (s.advance n).cfg = s.cfg := rfl
@[simp] theorem State.advance_regs (s : State) (n : Word) : (s.advance n).regs = s.regs := rfl
@[simp] theorem State.advance_priv (s : State) (n : Word) : (s.advance n).priv = s.priv := rfl
@[simp] theorem State.advance_csr (s : State) (n : Word) : (s.advance n).csr = s.csr := rfl
@[simp] theorem State.advance_pmp (s : State) (n : Word) : (s.advance n).pmp = s.pmp := rfl
@[simp] theorem State.advance_trig (s : State) (n : Word) : (s.advance n).trig = s.trig := rfl
@[simp] theorem State.advance_dbg (s : State) (n : Word) : (s.advance n).dbg = s.dbg := rfl
@[simp] theorem State.advance_nest (s : State) (n : Word) : (s.advance n).nest = s.nest := rfl
@[simp] theorem State.advance_hpe (s : State) (n : Word) : (s.advance n).hpe = s.hpe := rfl
@[simp] theorem State.advance_pfic (s : State) (n : Word) : (s.advance n).pfic = s.pfic := rfl
@[simp] theorem State.advance_stk (s : State) (n : Word) : (s.advance n).stk = s.stk := rfl
@[simp] theorem State.advance_dm (s : State) (n : Word) : (s.advance n).dm = s.dm := rfl
@[simp] theorem State.advance_reservation (s : State) (n : Word) : (s.advance n).reservation = s.reservation := rfl
@[simp] theorem State.advance_sleep (s : State) (n : Word) : (s.advance n).sleep = s.sleep := rfl
@[simp] theorem State.advance_eventPending (s : State) (n : Word) : (s.advance n).eventPending = s.eventPending := rfl
@[simp] theorem State.advance_debugMode (s : State) (n : Word) : (s.advance n).debugMode = s.debugMode := rfl
@[simp] theorem State.advance_mem (s : State) (n : Word) : (s.advance n).mem = s.mem := rfl
@[simp] theorem State.advance_stale (s : State) (n : Word) : (s.advance n).stale = s.stale := rfl
@[simp] theorem State.advance_unseen (s : State) (n : Word) : (s.advance n).unseen = s.unseen := rfl
@[simp] theorem State.advance_deviceQueue (s : State) (n : Word) : (s.advance n).deviceQueue = s.deviceQueue := rfl
@[simp] theorem State.advance_pmpBefore (s : State) (n : Word) : (s.advance n).pmpBefore = s.pmpBefore := rfl
@[simp] theorem State.advance_env (s : State) (n : Word) : (s.advance n).env = s.env := rfl
@[simp] theorem State.advance_draws (s : State) (n : Word) : (s.advance n).draws = s.draws := rfl

/-! ### drawn -/

@[simp] theorem State.drawn_cfg (s : State) : s.drawn.cfg = s.cfg := rfl
@[simp] theorem State.drawn_regs (s : State) : s.drawn.regs = s.regs := rfl
@[simp] theorem State.drawn_pc (s : State) : s.drawn.pc = s.pc := rfl
@[simp] theorem State.drawn_priv (s : State) : s.drawn.priv = s.priv := rfl
@[simp] theorem State.drawn_csr (s : State) : s.drawn.csr = s.csr := rfl
@[simp] theorem State.drawn_pmp (s : State) : s.drawn.pmp = s.pmp := rfl
@[simp] theorem State.drawn_trig (s : State) : s.drawn.trig = s.trig := rfl
@[simp] theorem State.drawn_dbg (s : State) : s.drawn.dbg = s.dbg := rfl
@[simp] theorem State.drawn_nest (s : State) : s.drawn.nest = s.nest := rfl
@[simp] theorem State.drawn_hpe (s : State) : s.drawn.hpe = s.hpe := rfl
@[simp] theorem State.drawn_pfic (s : State) : s.drawn.pfic = s.pfic := rfl
@[simp] theorem State.drawn_stk (s : State) : s.drawn.stk = s.stk := rfl
@[simp] theorem State.drawn_dm (s : State) : s.drawn.dm = s.dm := rfl
@[simp] theorem State.drawn_reservation (s : State) : s.drawn.reservation = s.reservation := rfl
@[simp] theorem State.drawn_sleep (s : State) : s.drawn.sleep = s.sleep := rfl
@[simp] theorem State.drawn_eventPending (s : State) : s.drawn.eventPending = s.eventPending := rfl
@[simp] theorem State.drawn_debugMode (s : State) : s.drawn.debugMode = s.debugMode := rfl
@[simp] theorem State.drawn_mem (s : State) : s.drawn.mem = s.mem := rfl
@[simp] theorem State.drawn_stale (s : State) : s.drawn.stale = s.stale := rfl
@[simp] theorem State.drawn_unseen (s : State) : s.drawn.unseen = s.unseen := rfl
@[simp] theorem State.drawn_deviceQueue (s : State) : s.drawn.deviceQueue = s.deviceQueue := rfl
@[simp] theorem State.drawn_pmpBefore (s : State) : s.drawn.pmpBefore = s.pmpBefore := rfl
@[simp] theorem State.drawn_env (s : State) : s.drawn.env = s.env := rfl

/-! ### passBoundary -/

@[simp] theorem State.passBoundary_cfg (s : State) : s.passBoundary.cfg = s.cfg := rfl
@[simp] theorem State.passBoundary_regs (s : State) : s.passBoundary.regs = s.regs := rfl
@[simp] theorem State.passBoundary_pc (s : State) : s.passBoundary.pc = s.pc := rfl
@[simp] theorem State.passBoundary_priv (s : State) : s.passBoundary.priv = s.priv := rfl
@[simp] theorem State.passBoundary_csr (s : State) : s.passBoundary.csr = s.csr := rfl
@[simp] theorem State.passBoundary_pmp (s : State) : s.passBoundary.pmp = s.pmp := rfl
@[simp] theorem State.passBoundary_trig (s : State) : s.passBoundary.trig = s.trig := rfl
@[simp] theorem State.passBoundary_dbg (s : State) : s.passBoundary.dbg = s.dbg := rfl
@[simp] theorem State.passBoundary_nest (s : State) : s.passBoundary.nest = s.nest := rfl
@[simp] theorem State.passBoundary_hpe (s : State) : s.passBoundary.hpe = s.hpe := rfl
@[simp] theorem State.passBoundary_pfic (s : State) : s.passBoundary.pfic = s.pfic := rfl
@[simp] theorem State.passBoundary_stk (s : State) : s.passBoundary.stk = s.stk := rfl
@[simp] theorem State.passBoundary_dm (s : State) : s.passBoundary.dm = s.dm := rfl
@[simp] theorem State.passBoundary_reservation (s : State) : s.passBoundary.reservation = s.reservation := rfl
@[simp] theorem State.passBoundary_sleep (s : State) : s.passBoundary.sleep = s.sleep := rfl
@[simp] theorem State.passBoundary_eventPending (s : State) : s.passBoundary.eventPending = s.eventPending := rfl
@[simp] theorem State.passBoundary_debugMode (s : State) : s.passBoundary.debugMode = s.debugMode := rfl
@[simp] theorem State.passBoundary_mem (s : State) : s.passBoundary.mem = s.mem := rfl
@[simp] theorem State.passBoundary_stale (s : State) : s.passBoundary.stale = s.stale := rfl
@[simp] theorem State.passBoundary_unseen (s : State) : s.passBoundary.unseen = s.unseen := rfl
@[simp] theorem State.passBoundary_deviceQueue (s : State) : s.passBoundary.deviceQueue = s.deviceQueue := rfl
@[simp] theorem State.passBoundary_pmpBefore (s : State) : s.passBoundary.pmpBefore = s.pmpBefore := rfl

/-! ### setBytes -/

@[simp] theorem State.setBytes_cfg (s : State) (as : List Word) (bs : List Byte) : (s.setBytes as bs).cfg = s.cfg := rfl
@[simp] theorem State.setBytes_regs (s : State) (as : List Word) (bs : List Byte) : (s.setBytes as bs).regs = s.regs := rfl
@[simp] theorem State.setBytes_pc (s : State) (as : List Word) (bs : List Byte) : (s.setBytes as bs).pc = s.pc := rfl
@[simp] theorem State.setBytes_priv (s : State) (as : List Word) (bs : List Byte) : (s.setBytes as bs).priv = s.priv := rfl
@[simp] theorem State.setBytes_csr (s : State) (as : List Word) (bs : List Byte) : (s.setBytes as bs).csr = s.csr := rfl
@[simp] theorem State.setBytes_pmp (s : State) (as : List Word) (bs : List Byte) : (s.setBytes as bs).pmp = s.pmp := rfl
@[simp] theorem State.setBytes_trig (s : State) (as : List Word) (bs : List Byte) : (s.setBytes as bs).trig = s.trig := rfl
@[simp] theorem State.setBytes_dbg (s : State) (as : List Word) (bs : List Byte) : (s.setBytes as bs).dbg = s.dbg := rfl
@[simp] theorem State.setBytes_nest (s : State) (as : List Word) (bs : List Byte) : (s.setBytes as bs).nest = s.nest := rfl
@[simp] theorem State.setBytes_hpe (s : State) (as : List Word) (bs : List Byte) : (s.setBytes as bs).hpe = s.hpe := rfl
@[simp] theorem State.setBytes_pfic (s : State) (as : List Word) (bs : List Byte) : (s.setBytes as bs).pfic = s.pfic := rfl
@[simp] theorem State.setBytes_stk (s : State) (as : List Word) (bs : List Byte) : (s.setBytes as bs).stk = s.stk := rfl
@[simp] theorem State.setBytes_dm (s : State) (as : List Word) (bs : List Byte) : (s.setBytes as bs).dm = s.dm := rfl
@[simp] theorem State.setBytes_reservation (s : State) (as : List Word) (bs : List Byte) :
    (s.setBytes as bs).reservation = s.reservation := rfl
@[simp] theorem State.setBytes_sleep (s : State) (as : List Word) (bs : List Byte) :
    (s.setBytes as bs).sleep = s.sleep := rfl
@[simp] theorem State.setBytes_eventPending (s : State) (as : List Word) (bs : List Byte) :
    (s.setBytes as bs).eventPending = s.eventPending := rfl
@[simp] theorem State.setBytes_debugMode (s : State) (as : List Word) (bs : List Byte) :
    (s.setBytes as bs).debugMode = s.debugMode := rfl
@[simp] theorem State.setBytes_deviceQueue (s : State) (as : List Word) (bs : List Byte) :
    (s.setBytes as bs).deviceQueue = s.deviceQueue := rfl
@[simp] theorem State.setBytes_pmpBefore (s : State) (as : List Word) (bs : List Byte) :
    (s.setBytes as bs).pmpBefore = s.pmpBefore := rfl
@[simp] theorem State.setBytes_env (s : State) (as : List Word) (bs : List Byte) : (s.setBytes as bs).env = s.env := rfl
@[simp] theorem State.setBytes_draws (s : State) (as : List Word) (bs : List Byte) :
    (s.setBytes as bs).draws = s.draws := rfl

@[simp] theorem State.setPc_pc (s : State) (v : Word) : (s.setPc v).pc = v := rfl
@[simp] theorem State.advance_pc (s : State) (n : Word) : (s.advance n).pc = s.pc + n := rfl
@[simp] theorem State.drawn_draws (s : State) : s.drawn.draws = s.draws + 1 := rfl
@[simp] theorem State.setBytes_mem (s : State) (as : List Word) (bs : List Byte) :
    (s.setBytes as bs).mem = Memory.setAll s.mem as bs := rfl
@[simp] theorem State.setBytes_stale (s : State) (as : List Word) (bs : List Byte) :
    (s.setBytes as bs).stale = s.overwrite as :: s.stale := rfl
@[simp] theorem State.setBytes_unseen (s : State) (as : List Word) (bs : List Byte) :
    (s.setBytes as bs).unseen = s.overwrite as :: s.unseen := rfl
@[simp] theorem State.passBoundary_env (s : State) : s.passBoundary.env = s.env.tail := rfl
@[simp] theorem State.passBoundary_draws (s : State) : s.passBoundary.draws = s.draws + 1 := rfl

/-! ### Registers -/

@[simp] theorem State.reg_zero (s : State) : s.reg 0#5 = 0#32 := rfl

/-- x0 is hard-wired: a write of it changes nothing. -/
@[simp] theorem State.setReg_zero (s : State) (v : Word) : s.setReg 0#5 v = s := rfl

/-- A register read depends on `regs` alone. -/
theorem State.reg_congr {s t : State} (h : t.regs = s.regs) (j : Reg) : t.reg j = s.reg j := by
  unfold State.reg; simp [h]

@[simp] theorem State.reg_setPc (s : State) (v : Word) (j : Reg) : (s.setPc v).reg j = s.reg j := rfl
@[simp] theorem State.reg_advance (s : State) (n : Word) (j : Reg) : (s.advance n).reg j = s.reg j := rfl
@[simp] theorem State.reg_drawn (s : State) (j : Reg) : s.drawn.reg j = s.reg j := rfl
@[simp] theorem State.reg_setBytes (s : State) (as : List Word) (bs : List Byte) (j : Reg) :
    (s.setBytes as bs).reg j = s.reg j := rfl

/-- The written register reads the value, x0 reads 0. -/
theorem State.reg_setReg_self (s : State) (i : Reg) (v : Word) : (s.setReg i v).reg i = if i = 0#5 then 0#32 else v := by
  unfold State.reg State.setReg
  split
  · rfl
  · simp

/-- Every other register reads as before. -/
theorem State.reg_setReg_other (s : State) (i j : Reg) (v : Word) (h : j ≠ i) : (s.setReg i v).reg j = s.reg j := by
  unfold State.reg State.setReg
  split
  · rfl
  · split
    · rfl
    · have hne : i.toNat ≠ j.toNat := fun e => h (BitVec.eq_of_toNat_eq e.symm)
      simp [hne]

end Sys2Proof.Machine
end

