-- ==== Sys2Proof/Laws/Memory.lean ====
section
/-! SUPPORT. Memory: a read after a write, and the canonical form that every memory operation keeps. -/

namespace Sys2Proof.Machine

/-- A write is read back, and leaves every other address alone. -/
theorem Memory.get_set (m : List Host.Cell) (a b : Nat) (v : Byte) :
    Memory.get (Memory.set m a v) b = if a = b then some v else Memory.get m b := by
  induction m with
  | nil => simp [Memory.set, Memory.get]
  | cons c rest ih =>
    obtain ⟨k, w⟩ := c
    simp only [Memory.set]
    split
    · simp [Memory.get]
    · split
      · rename_i hak; subst hak
        by_cases hab : a = b <;> simp [Memory.get, hab]
      · simp only [Memory.get, ih]
        by_cases hab : a = b
        · subst hab
          have : k ≠ a := fun e => by omega
          simp [this]
        · simp [hab]

/-- Every listed address is one of the old ones or the written one. -/
theorem Memory.mem_set {m : List Host.Cell} {a : Nat} {v : Byte} {c : Host.Cell} (h : c ∈ Memory.set m a v) :
    c ∈ m ∨ c = (a, v) := by
  induction m with
  | nil => simpa [Memory.set] using h
  | cons d rest ih =>
    obtain ⟨k, w⟩ := d
    simp only [Memory.set] at h
    split at h
    · simp only [List.mem_cons] at h ⊢; tauto
    · split at h
      · simp only [List.mem_cons] at h ⊢; tauto
      · simp only [List.mem_cons] at h ⊢
        rcases h with h | h
        · tauto
        · rcases ih h with h | h <;> tauto

/-- A write keeps the addresses strictly rising. -/
theorem Memory.set_pairwise {m : List Host.Cell} (a : Nat) (v : Byte) (h : m.Pairwise (fun c d => c.1 < d.1)) :
    (Memory.set m a v).Pairwise (fun c d => c.1 < d.1) := by
  induction m with
  | nil => simp [Memory.set]
  | cons d rest ih =>
    obtain ⟨k, w⟩ := d
    have hr := (List.pairwise_cons.mp h).2
    have hk := (List.pairwise_cons.mp h).1
    simp only [Memory.set]
    split
    · rename_i hak
      refine List.pairwise_cons.mpr ⟨fun c hc => ?_, h⟩
      rcases List.mem_cons.mp hc with rfl | hc
      · exact hak
      · exact Nat.lt_trans hak (hk c hc)
    · split
      · rename_i hak; subst hak
        exact List.pairwise_cons.mpr ⟨hk, hr⟩
      · refine List.pairwise_cons.mpr ⟨fun c hc => ?_, ih hr⟩
        rcases Memory.mem_set hc with hc | rfl
        · exact hk c hc
        · show k < a
          omega

/-- The canonical form in words. -/
theorem Memory.wf_iff (m : List Host.Cell) :
    Memory.wf m = true ↔ m.Pairwise (fun c d => c.1 < d.1) ∧ ∀ c ∈ m, c.1 < 2 ^ 32 := by
  simp [Memory.wf]

/-- A byte write keeps the canonical form. -/
theorem Memory.set_wf {m : List Host.Cell} {a : Nat} (v : Byte) (ha : a < 2 ^ 32) (h : Memory.wf m = true) :
    Memory.wf (Memory.set m a v) = true := by
  rw [Memory.wf_iff] at h ⊢
  refine ⟨Memory.set_pairwise a v h.1, fun c hc => ?_⟩
  rcases Memory.mem_set hc with hc | rfl
  · exact h.2 c hc
  · exact ha

/-- Dropping cells keeps the canonical form: a reset does so. -/
theorem Memory.filter_wf {m : List Host.Cell} (p : Host.Cell → Bool) (h : Memory.wf m = true) :
    Memory.wf (m.filter p) = true := by
  rw [Memory.wf_iff] at h ⊢
  exact ⟨h.1.filter p, fun c hc => h.2 c (List.mem_of_mem_filter hc)⟩

/-- The memory after reset has the canonical form. -/
theorem Memory.reset_wf : Memory.wf State.reset.mem = true := rfl

theorem Memory.setAll_wf {m : List Host.Cell} (as : List Word) (bs : List Byte) (h : Memory.wf m = true) :
    Memory.wf (Memory.setAll m as bs) = true := by
  induction as generalizing m bs with
  | nil => cases bs <;> exact h
  | cons a as ih =>
    cases bs with
    | nil => exact h
    | cons b bs => exact ih bs (Memory.set_wf b a.isLt h)

theorem State.setBytes_wf {s : State} (as : List Word) (bs : List Byte) (h : Memory.wf s.mem = true) :
    Memory.wf (s.setBytes as bs).mem = true := Memory.setAll_wf as bs h

/-- A write at some addresses leaves every other byte alone. -/
theorem Memory.get_setAll_other (m : List Host.Cell) (as : List Word) (bs : List Byte) (c : Word) (hc : c ∉ as) :
    Memory.get (Memory.setAll m as bs) c.toNat = Memory.get m c.toNat := by
  induction as generalizing m bs with
  | nil => cases bs <;> rfl
  | cons a as ih =>
    cases bs with
    | nil => rfl
    | cons b bs =>
      simp only [List.mem_cons, not_or] at hc
      rw [Memory.setAll, ih _ bs hc.2, Memory.get_set, if_neg]
      exact fun h => hc.1 (BitVec.eq_of_toNat_eq h.symm)

/-- Bytes written at different addresses are read back. -/
theorem Memory.get_setAll {m : List Host.Cell} {as : List Word} {bs : List Byte} (hn : as.Nodup)
    (hl : as.length = bs.length) :
    ∀ k (h : k < as.length), Memory.get (Memory.setAll m as bs) as[k].toNat = some bs[k] := by
  induction as generalizing m bs with
  | nil => intro k h; simp at h
  | cons a as ih =>
    cases bs with
    | nil => simp at hl
    | cons b bs =>
      intro k h
      have hn' := List.nodup_cons.mp hn
      cases k with
      | zero =>
        show Memory.get (Memory.setAll (Memory.set m a.toNat b) as bs) a.toNat = some b
        rw [Memory.get_setAll_other _ as bs a hn'.1, Memory.get_set, if_pos rfl]
      | succ k => exact ih hn'.2 (by simpa using hl) k (by simpa using h)

/-- A store leaves every other byte alone. -/
theorem State.byteAt_setBytes_other (s : State) (as : List Word) (bs : List Byte) (c : Word)
    (hc : c ∉ as) : (s.setBytes as bs).byteAt c = s.byteAt c := Memory.get_setAll_other s.mem as bs c hc

/-- What a store changes: `mem` and the records of stores only. -/
theorem State.setBytes_eq (s : State) (as : List Word) (bs : List Byte) :
    s.setBytes as bs =
      { s with
        mem := (s.setBytes as bs).mem
        stale := (s.setBytes as bs).stale
        unseen := (s.setBytes as bs).unseen } := rfl

/-- Reads of several bytes depend on the reads of each. -/
theorem State.bytesAt_congr {s t : State} (as : List Word) (h : ∀ a, t.byteAt a = s.byteAt a) :
    t.bytesAt as = s.bytesAt as := by
  induction as with
  | nil => rfl
  | cons a as ih => simp [State.bytesAt, h a, ih]

/-- The addresses of an access are different from each other. -/
theorem Width.addrs_nodup (w : Width) (a : Word) : (w.addrs a).Nodup := by
  cases w <;> simp [Width.addrs]

theorem Width.addrs_length (w : Width) (a v : Word) : (w.addrs a).length = (w.bytes v).length := by cases w <;> rfl

/-- Reads of several bytes from the read of each. -/
theorem State.bytesAt_of {s : State} {as : List Word} {bs : List Byte} (hl : as.length = bs.length)
    (h : ∀ k (hk : k < as.length), s.byteAt as[k] = some bs[k]) : s.bytesAt as = .ok bs := by
  induction as generalizing bs with
  | nil => cases bs with
    | nil => rfl
    | cons b bs => simp at hl
  | cons a as ih =>
    cases bs with
    | nil => simp at hl
    | cons b bs =>
      have h0 := h 0 (by simp)
      have hr := ih (bs := bs) (by simpa using hl) fun k hk => h (k + 1) (by simpa using hk)
      simp only [List.getElem_cons_zero] at h0
      simp only [State.bytesAt, h0, hr]

/-- Bytes written at different addresses are read back. -/
theorem State.bytesAt_setBytes (s : State) {as : List Word} {bs : List Byte} (hn : as.Nodup) (hl : as.length = bs.length) :
    (s.setBytes as bs).bytesAt as = .ok bs :=
  State.bytesAt_of hl (Memory.get_setAll hn hl)

/-- A store's bytes are read back. -/
theorem State.stored_bytes (s : State) (w : Width) (a v : Word) :
    (s.setBytes (w.addrs a) (w.bytes v)).bytesAt (w.addrs a) = .ok (w.bytes v) :=
  s.bytesAt_setBytes (w.addrs_nodup a) (w.addrs_length a v)

/-! ## The records of stores (20 R121, R126) -/

/-- A store that touches none of the addresses has written each of them nothing. -/
theorem Overwrite.touches_false {o : Overwrite} {as : List Nat} (h : ∀ e ∈ o, e.1 ∉ as) : Overwrite.touches o as = false := by
  unfold Overwrite.touches
  rw [List.any_eq_false]
  intro e he
  simpa using h e he

/-- With no recorded store to some addresses, an observer of them can miss none. -/
theorem storesOver_zero {st : List Overwrite} {as : List Nat} (h : ∀ o ∈ st, ∀ e ∈ o, e.1 ∉ as) : storesOver st as = 0 := by
  unfold storesOver
  rw [List.length_eq_zero_iff, List.filter_eq_nil_iff]
  intro o ho
  rw [Overwrite.touches_false (h o ho)]
  simp

/-- What an observer leaves unseen were recorded stores. -/
theorem leaveUnseen_subset (st : List Overwrite) (as : List Nat) (n : Nat) : ∀ o ∈ leaveUnseen st as n, o ∈ st := by
  induction st generalizing as n with
  | nil => intro o h; cases n <;> exact h
  | cons p rest ih =>
    intro o h
    cases n with
    | zero =>
      simp only [leaveUnseen] at h
      split at h
      · exact List.mem_cons_of_mem _ (ih _ _ o h)
      · rcases List.mem_cons.mp h with rfl | h
        · exact List.mem_cons_self
        · exact List.mem_cons_of_mem _ (ih _ _ o h)
    | succ n =>
      simp only [leaveUnseen] at h
      split at h
      all_goals
        rcases List.mem_cons.mp h with rfl | h
        · exact List.mem_cons_self
        · exact List.mem_cons_of_mem _ (ih _ _ o h)

end Sys2Proof.Machine
end

