-- ==== Sys2Proof/Laws/Device.lean ====
section
/-! SUPPORT. What the core's devices can change: a device write taking effect, the drain of the outstanding ones, a tick, a
pending bit. Each lemma says once everything its operation touches. -/

namespace Sys2Proof.Machine

/-- Only devices changed: interrupt controller, SysTick, the two debug data words, the event, the outstanding device writes,
the draw counter. -/
def DeviceOnly (s t : State) : Prop :=
  t =
    { s with
      pfic := t.pfic
      stk := t.stk
      dm := { s.dm with data0 := t.dm.data0, data1 := t.dm.data1 }
      eventPending := t.eventPending
      deviceQueue := t.deviceQueue
      draws := t.draws }

theorem DeviceOnly.refl (s : State) : DeviceOnly s s := rfl

theorem DeviceOnly.trans {s t u : State} (h : DeviceOnly s t) (h' : DeviceOnly t u) : DeviceOnly s u := by
  unfold DeviceOnly at *
  rw [h', h]

theorem DeviceOnly.drawn {s t : State} (h : DeviceOnly s t) : DeviceOnly s t.drawn := h.trans rfl

theorem State.setPending_device (s : State) (m : BitVec 256) : DeviceOnly s (s.setPending m) := rfl

theorem State.clearPending_device (s : State) (m : BitVec 256) : DeviceOnly s (s.clearPending m) := rfl

theorem State.assertSources_device (s : State) : DeviceOnly s s.assertSources := by
  unfold State.assertSources; split <;> rfl

theorem State.tick_device (s : State) : DeviceOnly s s.tick := by
  unfold State.tick
  split
  · rfl
  · split
    · dsimp only
      split <;> rfl
    · split <;> exact DeviceOnly.trans (t := { s with stk := _ }) rfl (State.assertSources_device _)

theorem State.setPrio_device (s : State) (n : IrqNum) (b : Byte) : DeviceOnly s (s.setPrio n b) := rfl

theorem State.writeCfgr_device (s : State) (v : Word) : DeviceOnly s (s.writeCfgr v) := by
  unfold State.writeCfgr
  dsimp only
  split <;> split <;> first | rfl | (split <;> rfl)

theorem State.writeStkCtlr_device (s : State) (v : Word) : DeviceOnly s (s.writeStkCtlr v) := by
  unfold State.writeStkCtlr; split <;> rfl

theorem State.writeIprior_device (s : State) (k : BitVec 6) (w : Width) (ln : Nat) (v : Word) :
    DeviceOnly s (s.writeIprior k w ln v) := by
  unfold State.writeIprior; cases w <;> rfl

/-- A device write taking effect changes devices only. -/
theorem State.devEffect_device (s : State) (r : DevReg) (w : Width) (ln : Nat) (v : Word) :
    DeviceOnly s (s.devEffect r w ln v) := by
  cases r
  case cfgr => exact s.writeCfgr_device v
  case iprior k => exact s.writeIprior_device k w ln v
  case iprr x => exact (s.clearPending_device _).trans (State.assertSources_device _)
  case stkCtlr => exact (s.writeStkCtlr_device v).trans (State.assertSources_device _)
  case stkSr => exact DeviceOnly.trans (t := { s with stk := _ }) rfl (State.assertSources_device _)
  all_goals rfl

theorem State.applyDev_device (s : State) (d : DevWrite) : DeviceOnly s (s.applyDev d) := by
  unfold State.applyDev
  split
  · rfl
  · exact s.devEffect_device _ _ _ _

theorem State.foldl_applyDev_device (ds : List DevWrite) (s : State) : DeviceOnly s (ds.foldl State.applyDev s) := by
  induction ds generalizing s with
  | nil => rfl
  | cons d ds ih => exact (s.applyDev_device d).trans (ih _)

/-- Draining the outstanding device writes changes devices only. -/
theorem State.drainAll_device (s : State) : DeviceOnly s s.drainAll :=
  DeviceOnly.trans (t := { s with deviceQueue := [] }) rfl (State.foldl_applyDev_device _ _)

theorem State.drainOne_device (s : State) : DeviceOnly s s.drainOne := by
  unfold State.drainOne
  split
  · rfl
  · exact DeviceOnly.trans (t := { s with deviceQueue := _ }) rfl (State.applyDev_device _ _)

/-- With no outstanding device write there is nothing to drain. -/
theorem State.drainAll_nil {s : State} (h : s.deviceQueue = []) : s.drainAll = s := by
  unfold State.drainAll
  rw [h, List.foldl_nil, ← h]

/-! ## The pending and enable bits -/

theorem State.setPending_reserved {s : State} (m : BitVec 256) (h : ReservedClear s.pfic) :
    ReservedClear (s.setPending m).pfic := by
  refine ⟨h.1, ?_⟩
  have hp := h.2
  show (s.pfic.pend ||| (m &&& pendableMask &&& ~~~s.pfic.pend)) &&& ~~~pendableMask = 0#256
  ext i hi
  have := congrArg (fun v => v[i]) hp
  simp at this ⊢
  intro h1
  rcases h1 with h1 | h1
  · exact this h1
  · exact h1.1.2

theorem State.clearPending_reserved {s : State} (m : BitVec 256) (h : ReservedClear s.pfic) :
    ReservedClear (s.clearPending m).pfic := by
  refine ⟨h.1, ?_⟩
  have hp := h.2
  show (s.pfic.pend &&& ~~~m) &&& ~~~pendableMask = 0#256
  ext i hi
  have := congrArg (fun v => v[i]) hp
  simp at this ⊢
  exact fun h1 _ => this h1

theorem State.assertSources_reserved {s : State} (h : ReservedClear s.pfic) : ReservedClear s.assertSources.pfic := by
  unfold State.assertSources
  split
  · exact h
  · exact State.setPending_reserved _ h

theorem State.writeCfgr_reserved {s : State} (v : Word) (h : ReservedClear s.pfic) : ReservedClear (s.writeCfgr v).pfic := by
  have h0 : ReservedClear Pfic.reset := ⟨by decide, by decide⟩
  unfold State.writeCfgr
  dsimp only
  split
  · exact h0
  · split
    · exact h
    · split
      · exact State.setPending_reserved _ (State.clearPending_reserved _ h)
      · exact h

/-- A device write taking effect keeps the reserved enable and pending bits 0. -/
theorem State.devEffect_reserved {s : State} (r : DevReg) (w : Width) (ln : Nat) (v : Word) (h : ReservedClear s.pfic) :
    ReservedClear (s.devEffect r w ln v).pfic := by
  cases r
  case cfgr => exact State.writeCfgr_reserved v h
  case ienr x =>
    refine ⟨?_, h.2⟩
    have hp := h.1
    show (s.pfic.en ||| (bankMask v x &&& programmableMask)) &&& ~~~programmableMask = 0#256
    ext i hi
    have := congrArg (fun v => v[i]) hp
    simp at this ⊢
    intro h1
    rcases h1 with h1 | h1
    · exact this h1
    · exact h1.2
  case irer x =>
    refine ⟨?_, h.2⟩
    have hp := h.1
    show (s.pfic.en &&& ~~~(bankMask v x)) &&& ~~~programmableMask = 0#256
    ext i hi
    have := congrArg (fun v => v[i]) hp
    simp at this ⊢
    exact fun h1 _ => this h1
  case ipsr x => exact State.setPending_reserved _ h
  case iprr x => exact State.assertSources_reserved (State.clearPending_reserved _ h)
  case iprior k => unfold State.devEffect State.writeIprior; cases w <;> exact h
  case stkCtlr =>
    refine State.assertSources_reserved ?_
    unfold State.writeStkCtlr; split <;> exact h
  case stkSr => exact State.assertSources_reserved h
  all_goals exact h

theorem State.applyDev_reserved {s : State} (d : DevWrite) (h : ReservedClear s.pfic) : ReservedClear (s.applyDev d).pfic := by
  unfold State.applyDev
  split
  · exact h
  · exact State.devEffect_reserved _ _ _ _ h

theorem State.foldl_applyDev_reserved (ds : List DevWrite) {s : State} (h : ReservedClear s.pfic) :
    ReservedClear (ds.foldl State.applyDev s).pfic := by
  induction ds generalizing s with
  | nil => exact h
  | cons d ds ih => exact ih (State.applyDev_reserved d h)

theorem State.drainAll_reserved {s : State} (h : ReservedClear s.pfic) : ReservedClear s.drainAll.pfic :=
  State.foldl_applyDev_reserved _ h

theorem State.drainOne_reserved {s : State} (h : ReservedClear s.pfic) : ReservedClear s.drainOne.pfic := by
  unfold State.drainOne
  split
  · exact h
  · exact State.applyDev_reserved _ h

theorem State.tick_reserved {s : State} (h : ReservedClear s.pfic) : ReservedClear s.tick.pfic := by
  unfold State.tick
  split
  · exact h
  · split
    · dsimp only
      split
      · exact State.setPending_reserved _ h
      · exact h
    · split <;> exact State.assertSources_reserved h

end Sys2Proof.Machine
end

