-- ==== Sys2Proof/Laws/Access.lean ====
section
/-! SUPPORT. What a data access can do: a load changes devices only, a store changes memory, the records of stores, the
reservation and the outstanding device writes. -/

namespace Sys2Proof.Machine

/-! ## Loads -/

theorem State.devLoad_device {s t : State} {a v : Word} {w : Width} (h : s.devLoad a w = .ok (v, t)) : DeviceOnly s t := by
  unfold State.devLoad at h
  split at h
  · cases h
  · split at h
    · simp only [Except.ok.injEq, Prod.mk.injEq] at h
      obtain ⟨_, rfl⟩ := h
      split
      · exact s.drainAll_device.drawn
      · exact s.drainAll_device
    · cases h

theorem State.devLoad_reserved {s t : State} {a v : Word} {w : Width} (h : s.devLoad a w = .ok (v, t))
    (hr : ReservedClear s.pfic) : ReservedClear t.pfic := by
  unfold State.devLoad at h
  split at h
  · cases h
  · split at h
    · simp only [Except.ok.injEq, Prod.mk.injEq] at h
      obtain ⟨_, rfl⟩ := h
      split <;> exact State.drainAll_reserved hr
    · cases h

/-- An aligned load that completes: from memory it changes nothing, from a device register it changes devices. -/
theorem State.loadAligned_cases {s t : State} {a v : Word} {w : Width} (h : s.loadAligned a w = .ok (v, t)) :
    s.devLoad a w = .ok (v, t) ∨
      (t = s ∧ s.pmpOk .load (w.addrs a) = true ∧ ∃ bs, s.bytesAt (w.addrs a) = .ok bs ∧ v = assemble bs) := by
  unfold State.loadAligned at h
  split at h
  · cases h
  · rename_i hp
    split at h
    · exact .inl h
    · cases h
    · cases h
    all_goals
      split at h
      · rename_i bs hb
        simp only [Except.ok.injEq, Prod.mk.injEq] at h
        obtain ⟨rfl, rfl⟩ := h
        exact .inr ⟨rfl, by simpa using hp, bs, hb, rfl⟩
      · cases h

theorem State.loadAligned_device {s t : State} {a v : Word} {w : Width} (h : s.loadAligned a w = .ok (v, t)) :
    DeviceOnly s t := by
  rcases State.loadAligned_cases h with h | ⟨rfl, _⟩
  · exact State.devLoad_device h
  · rfl

theorem State.loadAligned_reserved {s t : State} {a v : Word} {w : Width} (h : s.loadAligned a w = .ok (v, t))
    (hr : ReservedClear s.pfic) : ReservedClear t.pfic := by
  rcases State.loadAligned_cases h with h | ⟨rfl, _⟩
  · exact State.devLoad_reserved h hr
  · exact hr

theorem State.loadBytes_keeps (P : State → Prop)
    (hP : ∀ s a v t, s.loadAligned a .byte = .ok (v, t) → P s → P t) (as : List Word) {s t : State} {bs : List Byte}
    (h : s.loadBytes as = .ok (bs, t)) (hs : P s) : P t := by
  induction as generalizing s bs with
  | nil => simp only [State.loadBytes, Except.ok.injEq, Prod.mk.injEq] at h; exact h.2 ▸ hs
  | cons a as ih =>
    simp only [State.loadBytes] at h
    split at h
    · cases h
    · rename_i v s1 h1
      split at h
      · cases h
      · rename_i bs2 s2 h2
        simp only [Except.ok.injEq, Prod.mk.injEq] at h
        obtain ⟨_, rfl⟩ := h
        exact ih h2 (hP _ _ _ _ h1 hs)

/-- A property that aligned loads keep is kept by `MemRead`. -/
theorem State.load_keeps (P : State → Prop)
    (hP : ∀ s a w v t, s.loadAligned a w = .ok (v, t) → P s → P t) {s t : State} {a v : Word} {w : Width}
    (h : s.load a w = .ok (v, t)) (hs : P s) : P t := by
  unfold State.load at h
  split at h
  · exact hP _ _ _ _ _ h hs
  · split at h
    · cases h
    · cases h
    · split at h
      · cases h
      · rename_i bs s1 h1
        simp only [Except.ok.injEq, Prod.mk.injEq] at h
        obtain ⟨_, rfl⟩ := h
        exact State.loadBytes_keeps P (fun s a v t => hP s a .byte v t) _ h1 hs

/-- A load that completes changes devices only. -/
theorem State.load_device {s t : State} {a v : Word} {w : Width} (h : s.load a w = .ok (v, t)) : DeviceOnly s t :=
  State.load_keeps (fun u => DeviceOnly s u) (fun _ _ _ _ _ h1 hu => hu.trans (State.loadAligned_device h1)) h
    (DeviceOnly.refl s)

theorem State.load_reserved {s t : State} {a v : Word} {w : Width} (h : s.load a w = .ok (v, t))
    (hr : ReservedClear s.pfic) : ReservedClear t.pfic :=
  State.load_keeps (fun u => ReservedClear u.pfic) (fun _ _ _ _ _ h1 hu => State.loadAligned_reserved h1 hu) h hr

/-- The aligned load from RAM or ROM that the statements speak of. -/
theorem Loadable.load {s : State} {a : Word} {w : Width} {bs : List Byte} (h : Loadable s a w bs) :
    s.load a w = .ok (assemble bs, s) := by
  have hb : s.bytesAt (w.addrs a) = .ok bs := h.bytes
  unfold State.load State.loadAligned
  rw [if_pos h.aligned]
  simp only [h.allowed, Bool.not_true, Bool.false_eq_true, if_false, hb]
  rcases h.memory with hm | hm <;> simp only [hm]

/-! ## Stores -/

/-- Only what a store touches changed: memory and its records, the reservation, the outstanding device writes, the draws. -/
def StoreOnly (s t : State) : Prop :=
  t =
    { s with
      mem := t.mem
      stale := t.stale
      unseen := t.unseen
      reservation := t.reservation
      deviceQueue := t.deviceQueue
      draws := t.draws }

theorem StoreOnly.refl (s : State) : StoreOnly s s := rfl

theorem StoreOnly.trans {s t u : State} (h : StoreOnly s t) (h' : StoreOnly t u) : StoreOnly s u := by
  unfold StoreOnly at *
  rw [h', h]

theorem State.storeClears_only (s : State) (a : Word) : StoreOnly s (s.storeClears a) := by
  unfold State.storeClears
  split
  · rfl
  · split <;> rfl

theorem State.storeClears_eq (s : State) (a : Word) :
    s.storeClears a = { s with reservation := (s.storeClears a).reservation, draws := (s.storeClears a).draws } := by
  unfold State.storeClears
  split
  · rfl
  · split <;> rfl

@[simp] theorem State.storeClears_mem (s : State) (a : Word) : (s.storeClears a).mem = s.mem := by
  unfold State.storeClears
  split
  · rfl
  · split <;> rfl

theorem State.setBytes_only (s : State) (as : List Word) (bs : List Byte) : StoreOnly s (s.setBytes as bs) := rfl

/-- A device store that completes puts one write in the queue. -/
theorem State.devStore_ok {s t : State} {a v : Word} {w : Width} (h : s.devStore a w v = .ok t) :
    t = { s with deviceQueue := s.deviceQueue ++ [⟨a, w, w.cut v⟩] } := by
  unfold State.devStore at h
  split at h
  · cases h
  · split at h
    · split at h
      · cases h
      · split at h
        · cases h
        · simpa using h.symm
    · cases h

/-- An aligned store that completes: a device write joins the queue, or the bytes land in RAM. -/
theorem State.storeAligned_cases {s t : State} {a v : Word} {w : Width} (h : s.storeAligned a w v = .ok t) :
    (s.target (w.addrs a) = .device ∧ t = { s with deviceQueue := s.deviceQueue ++ [⟨a, w, w.cut v⟩] }) ∨
      (s.target (w.addrs a) = .ram ∧ t = (s.storeClears a).setBytes (w.addrs a) (w.bytes v)) := by
  unfold State.storeAligned at h
  split at h
  · cases h
  · split at h
    · rename_i ht; exact .inl ⟨ht, State.devStore_ok h⟩
    · cases h
    · cases h
    · cases h
    · rename_i ht
      simp only [Except.ok.injEq] at h
      exact .inr ⟨ht, h.symm⟩

theorem State.storeAligned_only {s t : State} {a v : Word} {w : Width} (h : s.storeAligned a w v = .ok t) : StoreOnly s t := by
  rcases State.storeAligned_cases h with ⟨_, rfl⟩ | ⟨_, rfl⟩
  · rfl
  · exact (s.storeClears_only a).trans (State.setBytes_only _ _ _)

theorem State.storeAligned_wf {s t : State} {a v : Word} {w : Width} (h : s.storeAligned a w v = .ok t)
    (hm : Memory.wf s.mem = true) : Memory.wf t.mem = true := by
  rcases State.storeAligned_cases h with ⟨_, rfl⟩ | ⟨_, rfl⟩
  · exact hm
  · exact State.setBytes_wf _ _ (by simpa using hm)

/-- A property that aligned stores keep is kept by the bytes of a split store. -/
theorem State.storeBytes_keeps (P : State → Prop)
    (hP : ∀ s a v t, s.storeAligned a .byte v = .ok t → P s → P t) (as : List Word) {s t : State} {bs : List Byte}
    (h : s.storeBytes as bs = .ok t) (hs : P s) : P t := by
  induction as generalizing s bs with
  | nil => cases bs <;> (simp only [State.storeBytes, Except.ok.injEq] at h; exact h ▸ hs)
  | cons a as ih =>
    cases bs with
    | nil => simp only [State.storeBytes, Except.ok.injEq] at h; exact h ▸ hs
    | cons b bs =>
      simp only [State.storeBytes] at h
      split at h
      · cases h
      · rename_i s1 h1
        exact ih h (hP _ _ _ _ h1 hs)

/-- A property that aligned stores keep is kept by `MemWrite`. -/
theorem State.store_keeps (P : State → Prop)
    (hP : ∀ s a w v t, s.storeAligned a w v = .ok t → P s → P t) {s t : State} {a v : Word} {w : Width}
    (h : s.store a w v = .ok t) (hs : P s) : P t := by
  unfold State.store at h
  split at h
  · exact hP _ _ _ _ _ h hs
  · split at h
    · cases h
    · cases h
    · split at h
      · cases h
      · rename_i s1 h1
        simp only [Except.ok.injEq] at h
        exact h ▸ State.storeBytes_keeps P (fun s a v t => hP s a .byte v t) _ h1 hs

/-- A store that completes changes only what a store touches. -/
theorem State.store_only {s t : State} {a v : Word} {w : Width} (h : s.store a w v = .ok t) : StoreOnly s t :=
  State.store_keeps (fun u => StoreOnly s u) (fun _ _ _ _ _ h1 hu => hu.trans (State.storeAligned_only h1)) h
    (StoreOnly.refl s)

theorem State.store_wf {s t : State} {a v : Word} {w : Width} (h : s.store a w v = .ok t) (hm : Memory.wf s.mem = true) :
    Memory.wf t.mem = true :=
  State.store_keeps (fun u => Memory.wf u.mem = true) (fun _ _ _ _ _ h1 hu => State.storeAligned_wf h1 hu) h hm

/-- The aligned store to RAM that the statements speak of. -/
theorem Storable.store {s : State} {a : Word} {w : Width} (v : Word) (h : Storable s a w) :
    s.store a w v = .ok ((s.storeClears a).setBytes (w.addrs a) (w.bytes v)) := by
  unfold State.store State.storeAligned
  rw [if_pos h.aligned]
  simp only [h.allowed, h.memory, Bool.not_true, Bool.false_eq_true, if_false]

/-! ## Reads of the debug module (20 R121) -/

/-- A read by the debug module changes devices, and which of the hart's stores it has yet to see: some of those before. -/
theorem State.agentLoad_only {s t : State} {a v : Word} {w : Width} (h : s.agentLoad a w = .ok (v, t)) :
    DeviceOnly s { t with unseen := s.unseen } ∧ ∀ o ∈ t.unseen, o ∈ s.unseen := by
  unfold State.agentLoad at h
  dsimp only at h
  split at h
  · have hd := State.load_device h
    unfold DeviceOnly at hd
    exact ⟨by unfold DeviceOnly; conv_lhs => rw [hd], fun o ho => by rw [hd] at ho; exact ho⟩
  · split at h
    · rename_i v1 s1 h1
      simp only [Except.ok.injEq, Prod.mk.injEq] at h
      have hd := State.load_device h1
      unfold DeviceOnly at hd
      obtain ⟨_, rfl⟩ := h
      refine ⟨?_, fun o ho => ?_⟩
      · unfold DeviceOnly State.agentSees State.drawn
        conv_lhs => rw [hd]
      · have ho' := leaveUnseen_subset _ _ _ o ho
        have he : (s1.drawn).unseen = s.unseen := by unfold State.drawn; rw [hd]
        exact he ▸ ho'
    · cases h

/-! ## Where a store restarts the machine (70 R651) -/

/-- Naming the access changes no restart. -/
theorem Stop.inAccess_restart {e : Stop} {a : Word} {t : State} (h : e.inAccess a = .restart t) : e = .restart t := by
  cases e <;> first | exact h | cases h

/-- An aligned store that ends in a reset does so after the outstanding device writes have taken effect. -/
theorem State.storeAligned_restart {s t : State} {a v : Word} {w : Width} (h : s.storeAligned a w v = .error (.restart t)) :
    t = s.drainAll.systemReset.leaveReset := by
  unfold State.storeAligned at h
  split at h
  · cases h
  · split at h
    · unfold State.devStore at h
      split at h
      · cases h
      · split at h
        · split at h
          · cases h
          · split at h
            · simpa using h.symm
            · cases h
        · cases h
    · cases h
    · cases h
    · cases h
    · cases h

/-- A store that ends in a reset does so from a state that the stored bytes before it led to. -/
theorem State.store_restart (P : State → Prop)
    (hP : ∀ s a w v t, s.storeAligned a w v = .ok t → P s → P t) {s t : State} {a v : Word} {w : Width}
    (h : s.store a w v = .error (.restart t)) (hs : P s) : ∃ u, P u ∧ t = u.drainAll.systemReset.leaveReset := by
  have bytes : ∀ (as : List Word) (bs : List Byte) (s : State), P s → s.storeBytes as bs = .error (.restart t) →
      ∃ u, P u ∧ t = u.drainAll.systemReset.leaveReset := by
    intro as
    induction as with
    | nil => intro bs s _ h; cases bs <;> simp [State.storeBytes] at h
    | cons a as ih =>
      intro bs s hs h
      cases bs with
      | nil => simp [State.storeBytes] at h
      | cons b bs =>
        simp only [State.storeBytes] at h
        split at h
        · rename_i e h1
          cases h
          exact ⟨s, hs, State.storeAligned_restart h1⟩
        · rename_i s1 h1
          exact ih bs s1 (hP _ _ _ _ _ h1 hs) h
  unfold State.store at h
  split at h
  · exact ⟨s, hs, State.storeAligned_restart h⟩
  · split at h
    · cases h
    · cases h
    · split at h
      · rename_i e h1
        exact bytes _ _ s hs (Stop.inAccess_restart (by simpa using h) ▸ h1)
      · cases h

/-! ## A load never restarts the machine -/

theorem State.devLoad_noRestart (s : State) (a : Word) (w : Width) (t : State) : s.devLoad a w ≠ .error (.restart t) := by
  unfold State.devLoad
  split
  · simp
  · split <;> simp

theorem State.loadAligned_noRestart (s : State) (a : Word) (w : Width) (t : State) :
    s.loadAligned a w ≠ .error (.restart t) := by
  unfold State.loadAligned
  split
  · simp
  · split
    · exact s.devLoad_noRestart a w t
    · simp
    · simp
    all_goals split <;> simp

theorem State.loadBytes_noRestart (as : List Word) (s t : State) : s.loadBytes as ≠ .error (.restart t) := by
  induction as generalizing s with
  | nil => simp [State.loadBytes]
  | cons a as ih =>
    simp only [State.loadBytes]
    split
    · rename_i e h
      intro h2
      cases h2
      exact s.loadAligned_noRestart _ _ _ h
    · split
      · rename_i e h
        intro h2
        cases h2
        exact ih _ h
      · simp

theorem State.load_noRestart (s : State) (a : Word) (w : Width) (t : State) : s.load a w ≠ .error (.restart t) := by
  unfold State.load
  split
  · exact s.loadAligned_noRestart a w t
  · split
    · simp
    · simp
    · split
      · rename_i e h
        intro h2
        exact State.loadBytes_noRestart _ _ _ (Stop.inAccess_restart (by simpa using h2) ▸ h)
      · simp

end Sys2Proof.Machine
end

