-- ==== Sys2Proof/Laws/Trap.lean ====
section
/-! SUPPORT. What taking a trap and returning from one can do. -/

namespace Sys2Proof.Machine

/-! ## Taking a trap -/

/-- Only what a trap entry touches changed: the trap CSRs and NEST_OV, the mode, the active traps, the frames, the pc, the
reservation, and devices. -/
def TrapOnly (s t : State) : Prop :=
  t =
    { s with
      csr :=
        { s.csr with
          mstatus := t.csr.mstatus
          mepc := t.csr.mepc
          mcause := t.csr.mcause
          mtval := t.csr.mtval
          inestcr := { s.csr.inestcr with nestOv := t.csr.inestcr.nestOv } }
      priv := t.priv
      nest := t.nest
      hpe := t.hpe
      pc := t.pc
      reservation := t.reservation
      pfic := t.pfic
      stk := t.stk
      dm := { s.dm with data0 := t.dm.data0, data1 := t.dm.data1 }
      eventPending := t.eventPending
      deviceQueue := t.deviceQueue
      pmpBefore := t.pmpBefore
      draws := t.draws }

theorem TrapOnly.refl (s : State) : TrapOnly s s := rfl

theorem TrapOnly.trans {s t u : State} (h : TrapOnly s t) (h' : TrapOnly t u) : TrapOnly s u := by
  unfold TrapOnly at *
  rw [h', h]

theorem DeviceOnly.trap {s t : State} (h : DeviceOnly s t) : TrapOnly s t := by
  unfold DeviceOnly at h
  unfold TrapOnly
  rw [h]

/-- A number or a draw level leaves the frame of the trap. -/
theorem State.overflow_only {s t : State} {lv : Nat} (h : s.overflow lv = .ok t) : TrapOnly s t := by
  unfold State.overflow at h
  split at h
  · cases h; rfl
  · split at h
    · cases h
    · split at h
      · cases h
      · simp only [Except.ok.injEq] at h; subst h; rfl

/-- `Overflow` lets a level through: two at most on V3A, three at most on V3B/C; priority state is as before. -/
theorem State.overflow_level {s t : State} {lv : Nat} (h : s.overflow lv = .ok t) :
    lv ≤ 3 ∧ (s.isV3A = true → lv ≤ 2) ∧ t.pfic = s.pfic ∧ t.nest = s.nest := by
  unfold State.overflow at h
  split at h
  · cases h; exact ⟨by omega, fun _ => by omega, rfl, rfl⟩
  · split at h
    · cases h
    · rename_i hv
      split at h
      · cases h
      · simp only [Except.ok.injEq] at h; subst h
        exact ⟨by omega, fun hv' => absurd hv' (by simpa using hv), rfl, rfl⟩

theorem State.hpePush_only (s : State) (lv : Nat) : TrapOnly s (s.hpePush lv) := by
  unfold State.hpePush; split <;> rfl

theorem State.clearReservation_only (s : State) : TrapOnly s s.clearReservation := rfl

theorem State.pendOnEntry_device (s : State) (n : IrqNum) : DeviceOnly s (s.pendOnEntry n) := by
  unfold State.pendOnEntry
  split
  · exact (s.clearPending_device _).trans (State.assertSources_device _)
  · rfl

theorem State.pendOnEntry_reserved {s : State} (n : IrqNum) (h : ReservedClear s.pfic) :
    ReservedClear (s.pendOnEntry n).pfic := by
  unfold State.pendOnEntry
  split
  · exact State.assertSources_reserved (State.clearPending_reserved _ h)
  · exact h

theorem State.pmpSettled_only (s : State) : TrapOnly s s.pmpSettled := rfl

@[simp] theorem State.pmpSettled_pfic (s : State) : s.pmpSettled.pfic = s.pfic := rfl
@[simp] theorem State.pmpSettled_nest (s : State) : s.pmpSettled.nest = s.nest := rfl
@[simp] theorem State.pmpSettled_csr (s : State) : s.pmpSettled.csr = s.csr := rfl
@[simp] theorem State.pmpSettled_priv (s : State) : s.pmpSettled.priv = s.priv := rfl
@[simp] theorem State.pmpSettled_pmpBefore (s : State) : s.pmpSettled.pmpBefore = none := rfl
@[simp] theorem State.clearReservation_pfic (s : State) : s.clearReservation.pfic = s.pfic := rfl
@[simp] theorem State.clearReservation_nest (s : State) : s.clearReservation.nest = s.nest := rfl
@[simp] theorem State.clearReservation_csr (s : State) : s.clearReservation.csr = s.csr := rfl
@[simp] theorem State.clearReservation_priv (s : State) : s.clearReservation.priv = s.priv := rfl

theorem State.pendOnEntry_fields (s : State) (n : IrqNum) :
    (s.pendOnEntry n).nest = s.nest ∧ (s.pendOnEntry n).csr = s.csr ∧ (s.pendOnEntry n).priv = s.priv := by
  have h := s.pendOnEntry_device n
  unfold DeviceOnly at h
  exact ⟨by rw [h], by rw [h], by rw [h]⟩

theorem State.hpePush_fields (s : State) (lv : Nat) :
    (s.hpePush lv).pfic = s.pfic ∧ (s.hpePush lv).csr = s.csr ∧ (s.hpePush lv).priv = s.priv ∧
      (s.hpePush lv).lastLevel = s.lastLevel := by
  unfold State.hpePush; split <;> exact ⟨rfl, rfl, rfl, rfl⟩

/-- The part of the entry before the target. -/
theorem State.enterTrap_only (s : State) (t : TrapReq) : TrapOnly s (s.enterTrap t) := by
  unfold State.enterTrap
  dsimp only
  refine TrapOnly.trans (t := (if s.hpeEnabled && decide (s.level + 1 ≤ 2) then s.hpePush (s.level + 1) else s)) ?_ ?_
  · split
    · exact s.hpePush_only _
    · rfl
  · generalize (if s.hpeEnabled && decide (s.level + 1 ≤ 2) then s.hpePush (s.level + 1) else s) = s1
    refine TrapOnly.trans (t := { s1.enterCsrs t (s.level + 1) with nest := _ }) rfl ?_
    refine TrapOnly.trans (TrapOnly.trans ?_ (State.clearReservation_only _)) (State.pmpSettled_only _)
    split
    · exact (State.pendOnEntry_device _ _).trap
    · rfl

theorem State.enterTrap_nest (s : State) (t : TrapReq) :
    (s.enterTrap t).nest =
      ⟨t.actidx, s.hpeEnabled && decide (s.level + 1 ≤ 2), s.trapCsrs⟩ :: s.nest := by
  unfold State.enterTrap
  simp only [State.pmpSettled_nest, State.clearReservation_nest]
  split
  · rw [(State.pendOnEntry_fields _ _).1]
  · rfl

theorem State.enterTrap_priv (s : State) (t : TrapReq) : (s.enterTrap t).priv = .machine := by
  unfold State.enterTrap
  simp only [State.pmpSettled_priv, State.clearReservation_priv]
  split
  · rw [(State.pendOnEntry_fields _ _).2.2]; rfl
  · rfl

/-- The trap CSRs after the entry (60 R520 to R523). -/
theorem State.enterTrap_csr (s : State) (t : TrapReq) :
    (s.enterTrap t).csr =
      { s.csr with
        mcause := t.cause
        mepc := t.epc
        mtval := t.info
        mstatus :=
          { mie := if s.lastLevel ≤ s.level + 1 then false else s.csr.mstatus.mie
            mpie := s.csr.mstatus.mie
            mpp := s.priv } } := by
  have hs : ∀ u : State, u.csr = s.csr → u.priv = s.priv → u.lastLevel = s.lastLevel →
      (u.enterCsrs t (s.level + 1)).csr = _ := fun u h1 h2 h3 => by
    unfold State.enterCsrs; rw [h1, h2, h3]
  unfold State.enterTrap
  simp only [State.pmpSettled_csr, State.clearReservation_csr]
  split
  · rw [(State.pendOnEntry_fields _ _).2.1]
    split
    · exact hs _ (s.hpePush_fields _).2.1 (s.hpePush_fields _).2.2.1 (s.hpePush_fields _).2.2.2
    · exact hs s rfl rfl rfl
  · split
    · exact hs _ (s.hpePush_fields _).2.1 (s.hpePush_fields _).2.2.1 (s.hpePush_fields _).2.2.2
    · exact hs s rfl rfl rfl

theorem State.enterTrap_reserved {s : State} (t : TrapReq) (h : ReservedClear s.pfic) : ReservedClear (s.enterTrap t).pfic := by
  unfold State.enterTrap
  simp only [State.pmpSettled_pfic, State.clearReservation_pfic]
  have hp : ∀ u : State, u.pfic = s.pfic → ∀ l, ReservedClear ({ u.enterCsrs t (s.level + 1) with nest := l } : State).pfic := by
    intro u hu l; show ReservedClear u.pfic; rw [hu]; exact h
  split
  · apply State.pendOnEntry_reserved
    split
    · exact hp _ (s.hpePush_fields _).1 _
    · exact hp s rfl _
  · split
    · exact hp _ (s.hpePush_fields _).1 _
    · exact hp s rfl _

/-- The base of the vector table and every entry of it are even. -/
theorem Mtvec.baseAddr_even (m : Mtvec) : m.baseAddr.getLsbD 0 = false := by
  simp [Mtvec.baseAddr, fieldAt]

theorem Mtvec.entryAddr_even (m : Mtvec) (n : IrqNum) : (m.entryAddr n).getLsbD 0 = false := by
  have h1 := m.baseAddr_even
  have h2 : (fieldAt 32 n 2).getLsbD 0 = false := by simp [fieldAt]
  unfold Mtvec.entryAddr
  simp only [BitVec.getLsbD_add (by decide : 0 < 32), BitVec.carry_zero, h1, h2, Bool.xor_false]

/-- `TrapTarget` gives an even target and changes devices at most (a vector read). -/
theorem State.trapTarget_ok {s u : State} {t : TrapReq} {a : Word} (h : s.trapTarget t = .ok (a, u)) :
    a.getLsbD 0 = false ∧ DeviceOnly s u ∧ (ReservedClear s.pfic → ReservedClear u.pfic) := by
  unfold State.trapTarget at h
  split at h
  · unfold State.tableTarget at h
    dsimp only at h
    split at h
    · split at h
      · cases h
      · simp only [Except.ok.injEq, Prod.mk.injEq] at h
        obtain ⟨rfl, rfl⟩ := h
        exact ⟨Mtvec.baseAddr_even _, rfl, id⟩
    · split at h
      · simp only [Except.ok.injEq, Prod.mk.injEq] at h
        obtain ⟨rfl, rfl⟩ := h
        exact ⟨Mtvec.entryAddr_even _ _, rfl, id⟩
      · split at h
        · rename_i h1
          split at h
          · cases h
          · rename_i he
            simp only [Except.ok.injEq, Prod.mk.injEq] at h
            obtain ⟨rfl, rfl⟩ := h
            exact ⟨by simpa using he, State.loadAligned_device h1, State.loadAligned_reserved h1⟩
        · cases h
        · cases h
  · split at h
    · cases h
    · split at h
      · cases h
      · split at h
        · cases h
        · rename_i he
          simp only [Except.ok.injEq, Prod.mk.injEq] at h
          obtain ⟨rfl, rfl⟩ := h
          exact ⟨by simpa using he, rfl, id⟩

/-- A trap entry that completes, in its parts. -/
theorem State.trapEntry_next {s u : State} {t : TrapReq} (h : s.trapEntry t = .next u) :
    ∃ s1 a s2, s.drainAll.overflow (s.level + 1) = .ok s1 ∧ (s1.enterTrap t).trapTarget t = .ok (a, s2) ∧ u = s2.setPc a := by
  unfold State.trapEntry at h
  split at h
  · cases h
  · cases h
  · rename_i s1 h1
    split at h
    · rename_i a s2 h2
      simp only [Host.Outcome.next.injEq] at h
      exact ⟨s1, a, s2, h1, h2, h.symm⟩
    · cases h
    · cases h
    · cases h

theorem State.drainAll_nest (s : State) : s.drainAll.nest = s.nest := by
  have h := s.drainAll_device
  unfold DeviceOnly at h
  rw [h]

theorem State.drainAll_isV3A (s : State) : s.drainAll.isV3A = s.isV3A := by
  have h := s.drainAll_device
  unfold DeviceOnly at h
  rw [h]; rfl

/-- A trap entry that completes: what it leaves alone, and the pc, mode and level it reaches. -/
theorem State.trapEntry_effect {s u : State} {t : TrapReq} (h : s.trapEntry t = .next u) :
    TrapOnly s u ∧ u.priv = .machine ∧ u.pc.getLsbD 0 = false ∧ u.level = s.level + 1 ∧
      (s.level + 1 ≤ 3 ∧ (s.isV3A = true → s.level + 1 ≤ 2)) ∧ (ReservedClear s.pfic → ReservedClear u.pfic) := by
  obtain ⟨s1, a, s2, h1, h2, rfl⟩ := State.trapEntry_next h
  have hl := State.overflow_level h1
  have ht := State.trapTarget_ok h2
  have hd := ht.2.1
  have hn : s2.nest = (s1.enterTrap t).nest := by unfold DeviceOnly at hd; rw [hd]
  have hp : s2.priv = (s1.enterTrap t).priv := by unfold DeviceOnly at hd; rw [hd]
  refine ⟨?_, ?_, ht.1, ?_, ⟨hl.1, fun hv => hl.2.1 (by rw [State.drainAll_isV3A]; exact hv)⟩, fun hr => ?_⟩
  · exact ((s.drainAll_device.trap.trans (State.overflow_only h1)).trans ((s1.enterTrap_only t).trans hd.trap)).trans rfl
  · exact hp.trans (s1.enterTrap_priv t)
  · show s2.nest.length = _
    rw [hn, State.enterTrap_nest, List.length_cons, hl.2.2.2, State.drainAll_nest]; rfl
  · exact ht.2.2 (State.enterTrap_reserved t (by rw [hl.2.2.1]; exact State.drainAll_reserved hr))

/-! ## Raising an exception -/

/-- An exception that gives a next state: the program buffer ends in debug mode, or a trap is entered. -/
theorem State.raise_next {s u : State} {e : Exc} {info : Word} (h : s.raise e info = .next u) :
    (s.debugMode = true ∧ u = s.progbufFail) ∨
      (s.debugMode = false ∧ ∃ d t, (d = s ∨ d = s.drawn) ∧ t.epc = s.pc ∧ d.trapEntry t = .next u) := by
  unfold State.raise at h
  split at h
  · rename_i hd
    simp only [Host.Outcome.next.injEq] at h
    exact .inl ⟨hd, h.symm⟩
  · rename_i hd
    refine .inr ⟨by simpa using hd, ?_⟩
    split at h
    · cases h
    · cases h
    · split at h
      · unfold State.hardwareError at h
        split at h <;> exact ⟨_, _, .inr rfl, rfl, h⟩
      · exact ⟨_, _, .inl rfl, rfl, h⟩
    · exact ⟨_, _, .inl rfl, rfl, h⟩

/-! ## Returning from a trap -/

/-- Only what a return touches changed. -/
def ReturnOnly (s t : State) : Prop :=
  t =
    { s with
      csr :=
        { s.csr with
          mstatus := t.csr.mstatus
          mepc := t.csr.mepc
          mcause := t.csr.mcause
          mtval := t.csr.mtval
          intsyscr := { s.csr.intsyscr with gihwstknen := t.csr.intsyscr.gihwstknen } }
      regs := t.regs
      priv := t.priv
      nest := t.nest
      pc := t.pc
      sleep := t.sleep
      reservation := t.reservation
      pfic := t.pfic
      stk := t.stk
      dm := { s.dm with data0 := t.dm.data0, data1 := t.dm.data1 }
      eventPending := t.eventPending
      deviceQueue := t.deviceQueue
      draws := t.draws }

theorem ReturnOnly.trans {s t u : State} (h : ReturnOnly s t) (h' : ReturnOnly t u) : ReturnOnly s u := by
  unfold ReturnOnly at *
  rw [h', h]

theorem DeviceOnly.ret {s t : State} (h : DeviceOnly s t) : ReturnOnly s t := by
  unfold DeviceOnly at h
  unfold ReturnOnly
  rw [h]

theorem State.hpePop_only (s : State) (lv : Nat) : s.hpePop lv = { s with regs := (s.hpePop lv).regs } := by
  unfold State.hpePop; split <;> rfl

theorem State.leaveTrap_ok {s t : State} (h : s.leaveTrap = .ok t) :
    ReturnOnly s t ∧ t.nest = s.nest.tail ∧ t.pfic = s.pfic := by
  unfold State.leaveTrap at h
  split at h
  · rename_i hn; cases h; exact ⟨rfl, by rw [hn]; rfl, rfl⟩
  · rename_i e rest hn
    split at h
    · cases h
    · simp only [Except.ok.injEq] at h
      rw [← h, hn]
      have hpop := s.hpePop_only s.level
      have hs1 : (if s.hpeEnabled then s.hpePop s.level else s) =
          { s with regs := (if s.hpeEnabled then s.hpePop s.level else s).regs } := by
        split
        · exact hpop
        · rfl
      generalize (if s.hpeEnabled then s.hpePop s.level else s) = s1 at hs1 ⊢
      subst_eqs
      split
      · refine ⟨?_, rfl, ?_⟩
        · rw [hs1]; rfl
        · rw [hs1]
      · refine ⟨?_, rfl, ?_⟩
        · rw [hs1]; rfl
        · show s1.pfic = s.pfic
          rw [hs1]

theorem State.sleepOnExit_eq (s : State) (n : Nat) : s.sleepOnExit n = { s with sleep := (s.sleepOnExit n).sleep } := by
  unfold State.sleepOnExit; split <;> rfl

theorem State.clearGihwstknen_only (s : State) : ReturnOnly s s.clearGihwstknen := by
  unfold State.clearGihwstknen; split <;> rfl

theorem State.clearReservation_ret (s : State) : ReturnOnly s s.clearReservation := rfl

/-- A return that completes: what it leaves alone, and the pc, mode and level it reaches. -/
theorem State.trapReturn_effect {s u : State} (h : s.trapReturn = .next u) :
    ReturnOnly s u ∧ u.nest = s.nest.tail ∧ u.pc = s.csr.mepc ∧ s.csr.mepc.getLsbD 0 = false ∧ u.priv = s.csr.mstatus.mpp ∧
      s.level ≠ 3 ∧ u.pfic = s.drainAll.pfic := by
  have hd := s.drainAll_device
  have hcsr : s.drainAll.csr = s.csr := by unfold DeviceOnly at hd; rw [hd]
  unfold State.trapReturn at h
  dsimp only at h
  split at h
  · cases h
  · rename_i he
    split at h
    · cases h
    · rename_i hl
      split at h
      · cases h
      · rename_i s1 h1
        simp only [Host.Outcome.next.injEq] at h
        have hlv := State.leaveTrap_ok h1
        have hg := s1.clearGihwstknen_only
        have hm := s1.clearGihwstknen.clearReservation_ret
        rw [hcsr] at he
        subst h
        rw [State.sleepOnExit_eq]
        refine ⟨?_, ?_, ?_, by simpa using he, ?_, ?_, ?_⟩
        · exact (((hd.ret.trans (t := s.drainAll) (u := s.drainAll.returnCsrs) rfl).trans hlv.1).trans (hg.trans hm)).trans rfl
        · show s1.clearGihwstknen.clearReservation.nest = _
          rw [State.clearReservation_nest]
          have : s1.clearGihwstknen.nest = s1.nest := by unfold State.clearGihwstknen; split <;> rfl
          rw [this, hlv.2.1]
          show s.drainAll.nest.tail = _
          rw [State.drainAll_nest]
        · show s.drainAll.csr.mepc = _; rw [hcsr]
        · show s.drainAll.csr.mstatus.mpp = _; rw [hcsr]
        · have : s.drainAll.level = s.level := by unfold State.level; rw [State.drainAll_nest]
          rw [← this]; exact hl
        · show s1.clearGihwstknen.clearReservation.pfic = _
          rw [State.clearReservation_pfic]
          have : s1.clearGihwstknen.pfic = s1.pfic := by unfold State.clearGihwstknen; split <;> rfl
          rw [this, hlv.2.2]; rfl

end Sys2Proof.Machine
end

