-- ==== Sys2Proof/Laws/Csr.lean ====
section
/-! SUPPORT. What a CSR write can do, and what reads back after one. -/

namespace Sys2Proof.Machine

/-- Only CSRs changed: the program's, PMP, triggers, debug; with the record for the next fetch and the draw counter. -/
def CsrOnly (s t : State) : Prop :=
  t = { s with csr := t.csr, pmp := t.pmp, trig := t.trig, dbg := t.dbg, pmpBefore := t.pmpBefore, draws := t.draws }

theorem State.afterModeField_only (s : State) (b : BitVec 2) : CsrOnly s (s.afterModeField b) := by
  unfold State.afterModeField; split <;> rfl

theorem State.writePmpaddr_only (s : State) (i : Fin 4) (v : Word) : CsrOnly s (s.writePmpaddr i v) := by
  unfold State.writePmpaddr; split <;> rfl

/-- A write of `mstatus` reads back its three fields, MPP if it is legal (10 R43). -/
theorem State.writeMstatus_csr (s : State) (v : Word) :
    (s.writeMstatus v).csr =
      { s.csr with mstatus := { mie := v.getLsbD 3, mpie := v.getLsbD 7, mpp := s.modeField (v.extractLsb' 11 2) } } := rfl

theorem State.modeField_legal {s : State} {b : BitVec 2} {p : Priv} (h : Priv.ofBits b = some p) : s.modeField b = p := by
  unfold State.modeField; rw [h]

/-- A CSR write that is not refused changes CSRs only. -/
theorem State.csrWrite_only {s t : State} {a : CsrNum} {v : Word} (h : s.csrWrite a v = .ok t) : CsrOnly s t := by
  unfold State.csrWrite at h
  split at h
  case h_1 =>
    simp only [Except.ok.injEq] at h; subst h
    unfold State.writeMstatus State.afterModeField; dsimp only; split <;> rfl
  case h_8 => simp only [Except.ok.injEq] at h; subst h; exact s.writePmpaddr_only _ _
  case h_9 => simp only [Except.ok.injEq] at h; subst h; exact s.writePmpaddr_only _ _
  case h_10 => simp only [Except.ok.injEq] at h; subst h; exact s.writePmpaddr_only _ _
  case h_11 => simp only [Except.ok.injEq] at h; subst h; exact s.writePmpaddr_only _ _
  case h_15 =>
    simp only [Except.ok.injEq] at h; subst h
    unfold State.writeDcsr State.afterModeField; dsimp only; split <;> rfl
  case h_19 => simp only [Except.ok.injEq] at h; subst h; unfold State.writeGintenr; split <;> rfl
  case h_21 =>
    unfold State.writeCorecfgr at h
    split at h
    · cases h
    · simp only [Except.ok.injEq] at h; subst h; rfl
  all_goals simp only [Except.ok.injEq] at h; subst h; rfl

/-- A CSR write changes no register, no pc, no memory, no active trap. -/
theorem State.csrWrite_fields {s t : State} {a : CsrNum} {v : Word} (h : s.csrWrite a v = .ok t) :
    t.regs = s.regs ∧ t.pc = s.pc ∧ t.mem = s.mem ∧ t.nest = s.nest ∧ t.priv = s.priv ∧ t.pfic = s.pfic ∧ t.cfg = s.cfg := by
  have h' := State.csrWrite_only h
  unfold CsrOnly at h'
  refine ⟨?_, ?_, ?_, ?_, ?_, ?_, ?_⟩ <;> rw [h']

/-- A CSR instruction that gives a next state: it was turned away and a trap was entered or the program buffer ended, or it
read, wrote and moved on. -/
theorem State.csrInstr_next {s u : State} {bits : Word} {rd : Reg} {a : CsrNum} {wr : Bool} {f : Word → Word}
    (h : s.csrInstr bits rd a wr f = .next u) :
    (s.csrCheck a wr = .illegal ∧ s.raise .illegal bits = .next u) ∨
      (s.csrCheck a wr = .ok ∧ ∃ t, CsrOnly s t ∧ (if wr then s.csrWrite a (f (s.csrRead a)) = .ok t else t = s) ∧
        u = (t.setReg rd (s.csrRead a)).advance 4#32) := by
  unfold State.csrInstr at h
  split at h
  · rename_i hc; exact .inl ⟨hc, h⟩
  · cases h
  · rename_i hc
    refine .inr ⟨hc, ?_⟩
    split at h
    · rename_i hw
      split at h
      · cases h
      · rename_i t h1
        simp only [Host.Outcome.next.injEq] at h
        exact ⟨t, State.csrWrite_only h1, by rw [if_pos hw]; exact h1, h.symm⟩
    · rename_i hw
      simp only [Host.Outcome.next.injEq] at h
      exact ⟨s, rfl, by rw [if_neg hw], h.symm⟩

end Sys2Proof.Machine
end

