-- ==== Sys2Proof/Laws/Decode.lean ====
section
/-! SUPPORT. The fields of a word put together from fields are those fields, so the decoder on an encoded word is the match on
its fields. -/

namespace Sys2Proof

section Fields32
variable (f7 : BitVec 7) (rs2 rs1 : Reg) (f3 : BitVec 3) (rd : Reg) (op : BitVec 7)

@[simp] theorem opcodeOf_word32 : opcodeOf (word32 f7 rs2 rs1 f3 rd op) = op := by
  ext i hi; interval_cases i <;> simp [opcodeOf, word32, fieldAt]
@[simp] theorem rdOf_word32 : rdOf (word32 f7 rs2 rs1 f3 rd op) = rd := by
  ext i hi; interval_cases i <;> simp [rdOf, word32, fieldAt]
@[simp] theorem funct3Of_word32 : funct3Of (word32 f7 rs2 rs1 f3 rd op) = f3 := by
  ext i hi; interval_cases i <;> simp [funct3Of, word32, fieldAt]
@[simp] theorem rs1Of_word32 : rs1Of (word32 f7 rs2 rs1 f3 rd op) = rs1 := by
  ext i hi; interval_cases i <;> simp [rs1Of, word32, fieldAt]
@[simp] theorem rs2Of_word32 : rs2Of (word32 f7 rs2 rs1 f3 rd op) = rs2 := by
  ext i hi; interval_cases i <;> simp [rs2Of, word32, fieldAt]
@[simp] theorem funct7Of_word32 : funct7Of (word32 f7 rs2 rs1 f3 rd op) = f7 := by
  ext i hi; interval_cases i <;> simp [funct7Of, word32, fieldAt]

/-- Decoding a word made of six fields is the match on the fields. -/
theorem decode32_word32 : decode32 (word32 f7 rs2 rs1 f3 rd op) = decodeFields f7 rs2 rs1 f3 rd op := by
  simp [decode32]

end Fields32

section Fields16
variable (f3 : BitVec 3) (b12 : BitVec 1) (hi : BitVec 2) (ra : BitVec 3) (mid : BitVec 2) (rb : BitVec 3) (op : BitVec 2)

@[simp] theorem word16_f3 : (word16 f3 b12 hi ra mid rb op).extractLsb' 13 3 = f3 := by
  ext i h; interval_cases i <;> simp [word16, fieldAt]
@[simp] theorem word16_b12 : (word16 f3 b12 hi ra mid rb op).extractLsb' 12 1 = b12 := by
  ext i h; interval_cases i; simp [word16, fieldAt]
@[simp] theorem word16_hi : (word16 f3 b12 hi ra mid rb op).extractLsb' 10 2 = hi := by
  ext i h; interval_cases i <;> simp [word16, fieldAt]
@[simp] theorem word16_ra : (word16 f3 b12 hi ra mid rb op).extractLsb' 7 3 = ra := by
  ext i h; interval_cases i <;> simp [word16, fieldAt]
@[simp] theorem word16_mid : (word16 f3 b12 hi ra mid rb op).extractLsb' 5 2 = mid := by
  ext i h; interval_cases i <;> simp [word16, fieldAt]
@[simp] theorem word16_rb : (word16 f3 b12 hi ra mid rb op).extractLsb' 2 3 = rb := by
  ext i h; interval_cases i <;> simp [word16, fieldAt]
@[simp] theorem word16_op : (word16 f3 b12 hi ra mid rb op).extractLsb' 0 2 = op := by
  ext i h; interval_cases i <;> simp [word16, fieldAt]

/-- Decoding a parcel made of seven fields is the match on the fields. -/
theorem decode16_word16 : decode16 (word16 f3 b12 hi ra mid rb op) = decodeFields16 f3 b12 hi ra mid rb op := by
  simp [decode16]

end Fields16

/-- The two halves of a 12-bit immediate make it up again. -/
@[simp] theorem immI_parts (imm : BitVec 12) : immI (immHi7 imm) (immLo5 imm) = imm := by
  ext i h; interval_cases i <;> simp [immI, immHi7, immLo5, fieldAt]

/-- The two parts of a 5-bit field make it up again. -/
@[simp] theorem reg5_parts (r : Reg) : reg5 (regHi r) (regLo r) = r := by
  ext i h; interval_cases i <;> simp [reg5, regHi, regLo, fieldAt]

/-! ## Words of a rule's encoding -/

/-- A field that the mask covers is that of the pattern. -/
theorem extract_of_mask {n : Nat} {w mask pattern : BitVec n} (h : w &&& mask = pattern) (lo len : Nat)
    (hk : mask.extractLsb' lo len = BitVec.allOnes len) : w.extractLsb' lo len = pattern.extractLsb' lo len := by
  rw [← h]
  ext i hi
  have hm : mask.getLsbD (lo + i) = true := by
    have := congrArg (fun v => v.getLsbD i) hk
    simpa [hi] using this
  simp [hm]

/-- A word whose fields match a row of the member decodes to it. -/
theorem decode_full {c : Config} {w : Word} {i : Instr} (hw : w ≠ 0xFFFFFFFF#32) (h : decode32 w = some i)
    (hc : i.onMember c = true) : decode c (.full w) = .instr i := by
  simp [decode, decodeRow, Fetched.alwaysIllegal, hw, h, hc, Option.filter]

/-- The denser of two rows is one of them, and neither has more 1 bits; the first wins where they have as many. -/
theorem RowMatch.denser_eq_some {x y : Option RowMatch} {z : RowMatch} (h : RowMatch.denser x y = some z) :
    (x = some z ∧ ∀ u, y = some u → u.1 ≤ z.1) ∨ (y = some z ∧ ∀ u, x = some u → u.1 < z.1) := by
  unfold RowMatch.denser at h
  split at h
  · exact .inr ⟨h, by simp⟩
  · exact .inl ⟨h, by simp⟩
  · split at h
    · rename_i hlt
      exact .inr ⟨h, by simp only [Option.some.injEq] at h ⊢; rintro u rfl; rw [← h]; exact hlt⟩
    · rename_i hlt
      exact .inl ⟨h, by simp only [Option.some.injEq] at h ⊢; rintro u rfl; rw [← h]; omega⟩

theorem RowMatch.denser_eq_none {x y : Option RowMatch} (h : RowMatch.denser x y = none) : x = none ∧ y = none := by
  unfold RowMatch.denser at h
  split at h
  · exact ⟨rfl, h⟩
  · cases h
  · split at h <;> cases h

/-- Supplied XW rows give nothing just where none matches. -/
theorem decodeXw_eq_none {rows : List XwRow} {p : Half} :
    decodeXw rows p = none ↔ ∀ r ∈ rows, p &&& r.mask ≠ r.pattern := by
  induction rows with
  | nil => simp [decodeXw]
  | cons row rows ih =>
    rw [List.forall_mem_cons, ← ih]
    constructor
    · intro h
      obtain ⟨h1, h2⟩ := RowMatch.denser_eq_none h
      exact ⟨fun hm => by simp [hm] at h1, h2⟩
    · rintro ⟨h1, h2⟩
      simp [decodeXw, h1, h2, RowMatch.denser]

/-- What the supplied XW rows give (30 R156): a row that matches, with no fewer 1 bits in its mask than any other that
matches. -/
theorem decodeXw_eq_some {rows : List XwRow} {p : Half} {z : RowMatch} (h : decodeXw rows p = some z) :
    (∃ row ∈ rows, p &&& row.mask = row.pattern ∧ z = (maskOnes row.mask, row.instr p)) ∧
      ∀ r ∈ rows, p &&& r.mask = r.pattern → maskOnes r.mask ≤ z.1 := by
  induction rows generalizing z with
  | nil => cases h
  | cons row rows ih =>
    obtain ⟨hx, hy⟩ | ⟨hy, hx⟩ := RowMatch.denser_eq_some h
    · split at hx
      · rename_i hm
        simp only [Option.some.injEq] at hx
        subst hx
        refine ⟨⟨row, by simp, hm, rfl⟩, fun r hr hrm => ?_⟩
        obtain rfl | hr := List.mem_cons.mp hr
        · exact le_refl _
        · cases hd : decodeXw rows p with
          | none => exact absurd hrm (decodeXw_eq_none.mp hd r hr)
          | some u => exact le_trans ((ih hd).2 r hr hrm) (hy u hd)
      · cases hx
    · obtain ⟨⟨q, hq, hqm, rfl⟩, hall⟩ := ih hy
      refine ⟨⟨q, by simp [hq], hqm, rfl⟩, fun r hr hrm => ?_⟩
      obtain rfl | hr := List.mem_cons.mp hr
      · exact le_of_lt (hx (maskOnes r.mask, r.instr p) (by simp [hrm]))
      · exact hall r hr hrm

/-- The supplied row that matches with more 1 bits in its mask than every other is the one taken. -/
theorem decodeXw_of_densest {rows : List XwRow} {p : Half} {row : XwRow} (hr : row ∈ rows) (hm : p &&& row.mask = row.pattern)
    (hall : ∀ r ∈ rows, p &&& r.mask = r.pattern → r ≠ row → maskOnes r.mask < maskOnes row.mask) :
    decodeXw rows p = some (maskOnes row.mask, row.instr p) := by
  cases hd : decodeXw rows p with
  | none => exact absurd hm (decodeXw_eq_none.mp hd row hr)
  | some z =>
    obtain ⟨⟨q, hq, hqm, rfl⟩, hmax⟩ := decodeXw_eq_some hd
    by_cases hqr : q = row
    · rw [hqr]
    · exact absurd (hmax row hr hm) (not_le.mpr (hall q hq hqm hqr))

/-- An XW row's instruction is one of the eight. -/
@[simp] theorem XwRow.instr_feature (row : XwRow) (p : Half) : (row.instr p).feature = .xw := by
  unfold XwRow.instr; split <;> rfl

/-- A parcel whose fields match a row of the member decodes to it, unless a supplied row with more 1 bits in its mask matches
too (30 R156). -/
theorem decode_half {c : Config} {p : Half} {i : Instr} (hp : p ≠ 0x0000#16) (h : decode16 p = some i)
    (hc : i.onMember c = true)
    (hx : c.variant.isV3A = true ∨ ∀ r ∈ c.xw, p &&& r.mask = r.pattern → maskOnes r.mask ≤ maskOnes i.rowMask) :
    decode c (.half p) = .instr i := by
  have ht : (tableMatch p).filter (fun x => x.2.onMember c) = some (maskOnes i.rowMask, i) := by
    simp [tableMatch, h, hc, Option.filter]
  have hrow : decodeRow c (.half p) = some i := by
    unfold decodeRow
    dsimp only
    rw [ht]
    cases hd : (decodeXw c.xw p).filter (fun x => x.2.onMember c) with
    | none => rfl
    | some z =>
      obtain ⟨hz, hm⟩ := Option.filter_eq_some_iff.mp hd
      obtain ⟨⟨row, hr, hrm, rfl⟩, -⟩ := decodeXw_eq_some hz
      obtain ha | hx := hx
      · simp [Instr.onMember, Config.has, ha] at hm
      · have := hx row hr hrm
        simp [RowMatch.denser, Nat.not_lt.mpr this]
  simp [decode, hrow, Fetched.alwaysIllegal, hp]

end Sys2Proof
end

