-- ==== Sys2Proof/Laws/Exec.lean ====
section
/-! SUPPORT. Each arm of `exec` as an equation, so that a proof about one instruction never opens the whole match. -/

namespace Sys2Proof.Machine

theorem exec_lui (rd : Reg) (imm : BitVec 20) (s : State) : exec (.lui rd imm) s = execLui rd imm s := rfl
theorem exec_auipc (rd : Reg) (imm : BitVec 20) (s : State) : exec (.auipc rd imm) s = execAuipc rd imm s := rfl
theorem exec_jal (rd : Reg) (imm : BitVec 21) (s : State) : exec (.jal rd imm) s = execJal rd imm s := rfl
theorem exec_jalr (rd rs1 : Reg) (imm : BitVec 12) (s : State) : exec (.jalr rd rs1 imm) s = execJalr rd rs1 imm s := rfl
theorem exec_beq (rs1 rs2 : Reg) (imm : BitVec 13) (s : State) : exec (.beq rs1 rs2 imm) s = execBeq rs1 rs2 imm s := rfl
theorem exec_bne (rs1 rs2 : Reg) (imm : BitVec 13) (s : State) : exec (.bne rs1 rs2 imm) s = execBne rs1 rs2 imm s := rfl
theorem exec_blt (rs1 rs2 : Reg) (imm : BitVec 13) (s : State) : exec (.blt rs1 rs2 imm) s = execBlt rs1 rs2 imm s := rfl
theorem exec_bge (rs1 rs2 : Reg) (imm : BitVec 13) (s : State) : exec (.bge rs1 rs2 imm) s = execBge rs1 rs2 imm s := rfl
theorem exec_bltu (rs1 rs2 : Reg) (imm : BitVec 13) (s : State) : exec (.bltu rs1 rs2 imm) s = execBltu rs1 rs2 imm s := rfl
theorem exec_bgeu (rs1 rs2 : Reg) (imm : BitVec 13) (s : State) : exec (.bgeu rs1 rs2 imm) s = execBgeu rs1 rs2 imm s := rfl
theorem exec_lb (rd rs1 : Reg) (imm : BitVec 12) (s : State) : exec (.lb rd rs1 imm) s = execLb rd rs1 imm s := rfl
theorem exec_lh (rd rs1 : Reg) (imm : BitVec 12) (s : State) : exec (.lh rd rs1 imm) s = execLh rd rs1 imm s := rfl
theorem exec_lw (rd rs1 : Reg) (imm : BitVec 12) (s : State) : exec (.lw rd rs1 imm) s = execLw rd rs1 imm s := rfl
theorem exec_lbu (rd rs1 : Reg) (imm : BitVec 12) (s : State) : exec (.lbu rd rs1 imm) s = execLbu rd rs1 imm s := rfl
theorem exec_lhu (rd rs1 : Reg) (imm : BitVec 12) (s : State) : exec (.lhu rd rs1 imm) s = execLhu rd rs1 imm s := rfl
theorem exec_sb (rs2 rs1 : Reg) (imm : BitVec 12) (s : State) : exec (.sb rs2 rs1 imm) s = execSb rs2 rs1 imm s := rfl
theorem exec_sh (rs2 rs1 : Reg) (imm : BitVec 12) (s : State) : exec (.sh rs2 rs1 imm) s = execSh rs2 rs1 imm s := rfl
theorem exec_sw (rs2 rs1 : Reg) (imm : BitVec 12) (s : State) : exec (.sw rs2 rs1 imm) s = execSw rs2 rs1 imm s := rfl
theorem exec_addi (rd rs1 : Reg) (imm : BitVec 12) (s : State) : exec (.addi rd rs1 imm) s = execAddi rd rs1 imm s := rfl
theorem exec_slti (rd rs1 : Reg) (imm : BitVec 12) (s : State) : exec (.slti rd rs1 imm) s = execSlti rd rs1 imm s := rfl
theorem exec_sltiu (rd rs1 : Reg) (imm : BitVec 12) (s : State) : exec (.sltiu rd rs1 imm) s = execSltiu rd rs1 imm s := rfl
theorem exec_xori (rd rs1 : Reg) (imm : BitVec 12) (s : State) : exec (.xori rd rs1 imm) s = execXori rd rs1 imm s := rfl
theorem exec_ori (rd rs1 : Reg) (imm : BitVec 12) (s : State) : exec (.ori rd rs1 imm) s = execOri rd rs1 imm s := rfl
theorem exec_andi (rd rs1 : Reg) (imm : BitVec 12) (s : State) : exec (.andi rd rs1 imm) s = execAndi rd rs1 imm s := rfl
theorem exec_slli (rd rs1 : Reg) (shamt : BitVec 5) (s : State) :
    exec (.slli rd rs1 shamt) s =
      execSlli rd rs1 shamt s := rfl
theorem exec_srli (rd rs1 : Reg) (shamt : BitVec 5) (s : State) :
    exec (.srli rd rs1 shamt) s =
      execSrli rd rs1 shamt s := rfl
theorem exec_srai (rd rs1 : Reg) (shamt : BitVec 5) (s : State) :
    exec (.srai rd rs1 shamt) s =
      execSrai rd rs1 shamt s := rfl
theorem exec_add (rd rs1 rs2 : Reg) (s : State) : exec (.add rd rs1 rs2) s = execAdd rd rs1 rs2 s := rfl
theorem exec_sub (rd rs1 rs2 : Reg) (s : State) : exec (.sub rd rs1 rs2) s = execSub rd rs1 rs2 s := rfl
theorem exec_sll (rd rs1 rs2 : Reg) (s : State) : exec (.sll rd rs1 rs2) s = execSll rd rs1 rs2 s := rfl
theorem exec_slt (rd rs1 rs2 : Reg) (s : State) : exec (.slt rd rs1 rs2) s = execSlt rd rs1 rs2 s := rfl
theorem exec_sltu (rd rs1 rs2 : Reg) (s : State) : exec (.sltu rd rs1 rs2) s = execSltu rd rs1 rs2 s := rfl
theorem exec_xor (rd rs1 rs2 : Reg) (s : State) : exec (.xor rd rs1 rs2) s = execXor rd rs1 rs2 s := rfl
theorem exec_srl (rd rs1 rs2 : Reg) (s : State) : exec (.srl rd rs1 rs2) s = execSrl rd rs1 rs2 s := rfl
theorem exec_sra (rd rs1 rs2 : Reg) (s : State) : exec (.sra rd rs1 rs2) s = execSra rd rs1 rs2 s := rfl
theorem exec_or (rd rs1 rs2 : Reg) (s : State) : exec (.or rd rs1 rs2) s = execOr rd rs1 rs2 s := rfl
theorem exec_and (rd rs1 rs2 : Reg) (s : State) : exec (.and rd rs1 rs2) s = execAnd rd rs1 rs2 s := rfl
theorem exec_fence (fm pred succ : BitVec 4) (rs1 rd : Reg) (s : State) :
    exec (.fence fm pred succ rs1 rd) s =
      execFence fm pred succ rs1 rd s := rfl
theorem exec_ecall (s : State) : exec (.ecall) s = execEcall s := rfl
theorem exec_ebreak (s : State) : exec (.ebreak) s = execEbreak s := rfl
theorem exec_csrrw (rd : Reg) (csr : CsrNum) (rs1 : Reg) (s : State) :
    exec (.csrrw rd csr rs1) s =
      execCsrrw rd csr rs1 s := rfl
theorem exec_csrrs (rd : Reg) (csr : CsrNum) (rs1 : Reg) (s : State) :
    exec (.csrrs rd csr rs1) s =
      execCsrrs rd csr rs1 s := rfl
theorem exec_csrrc (rd : Reg) (csr : CsrNum) (rs1 : Reg) (s : State) :
    exec (.csrrc rd csr rs1) s =
      execCsrrc rd csr rs1 s := rfl
theorem exec_csrrwi (rd : Reg) (csr : CsrNum) (imm : BitVec 5) (s : State) :
    exec (.csrrwi rd csr imm) s =
      execCsrrwi rd csr imm s := rfl
theorem exec_csrrsi (rd : Reg) (csr : CsrNum) (imm : BitVec 5) (s : State) :
    exec (.csrrsi rd csr imm) s =
      execCsrrsi rd csr imm s := rfl
theorem exec_csrrci (rd : Reg) (csr : CsrNum) (imm : BitVec 5) (s : State) :
    exec (.csrrci rd csr imm) s =
      execCsrrci rd csr imm s := rfl
theorem exec_mret (s : State) : exec (.mret) s = execMret s := rfl
theorem exec_wfi (s : State) : exec (.wfi) s = execWfi s := rfl
theorem exec_fenceI (imm : BitVec 12) (rs1 rd : Reg) (s : State) :
    exec (.fenceI imm rs1 rd) s =
      execFenceI imm rs1 rd s := rfl
theorem exec_mul (rd rs1 rs2 : Reg) (s : State) : exec (.mul rd rs1 rs2) s = execMul rd rs1 rs2 s := rfl
theorem exec_mulh (rd rs1 rs2 : Reg) (s : State) : exec (.mulh rd rs1 rs2) s = execMulh rd rs1 rs2 s := rfl
theorem exec_mulhsu (rd rs1 rs2 : Reg) (s : State) : exec (.mulhsu rd rs1 rs2) s = execMulhsu rd rs1 rs2 s := rfl
theorem exec_mulhu (rd rs1 rs2 : Reg) (s : State) : exec (.mulhu rd rs1 rs2) s = execMulhu rd rs1 rs2 s := rfl
theorem exec_div (rd rs1 rs2 : Reg) (s : State) : exec (.div rd rs1 rs2) s = execDiv rd rs1 rs2 s := rfl
theorem exec_divu (rd rs1 rs2 : Reg) (s : State) : exec (.divu rd rs1 rs2) s = execDivu rd rs1 rs2 s := rfl
theorem exec_rem (rd rs1 rs2 : Reg) (s : State) : exec (.rem rd rs1 rs2) s = execRem rd rs1 rs2 s := rfl
theorem exec_remu (rd rs1 rs2 : Reg) (s : State) : exec (.remu rd rs1 rs2) s = execRemu rd rs1 rs2 s := rfl
theorem exec_lrW (rd rs1 : Reg) (aq rl : BitVec 1) (s : State) : exec (.lrW rd rs1 aq rl) s = execLrW rd rs1 aq rl s := rfl
theorem exec_scW (rd rs2 rs1 : Reg) (aq rl : BitVec 1) (s : State) :
    exec (.scW rd rs2 rs1 aq rl) s =
      execScW rd rs2 rs1 aq rl s := rfl
theorem exec_amoswapW (rd rs2 rs1 : Reg) (aq rl : BitVec 1) (s : State) :
    exec (.amoswapW rd rs2 rs1 aq rl) s =
      execAmoswapW rd rs2 rs1 aq rl s := rfl
theorem exec_amoaddW (rd rs2 rs1 : Reg) (aq rl : BitVec 1) (s : State) :
    exec (.amoaddW rd rs2 rs1 aq rl) s =
      execAmoaddW rd rs2 rs1 aq rl s := rfl
theorem exec_amoxorW (rd rs2 rs1 : Reg) (aq rl : BitVec 1) (s : State) :
    exec (.amoxorW rd rs2 rs1 aq rl) s =
      execAmoxorW rd rs2 rs1 aq rl s := rfl
theorem exec_amoandW (rd rs2 rs1 : Reg) (aq rl : BitVec 1) (s : State) :
    exec (.amoandW rd rs2 rs1 aq rl) s =
      execAmoandW rd rs2 rs1 aq rl s := rfl
theorem exec_amoorW (rd rs2 rs1 : Reg) (aq rl : BitVec 1) (s : State) :
    exec (.amoorW rd rs2 rs1 aq rl) s =
      execAmoorW rd rs2 rs1 aq rl s := rfl
theorem exec_amominW (rd rs2 rs1 : Reg) (aq rl : BitVec 1) (s : State) :
    exec (.amominW rd rs2 rs1 aq rl) s =
      execAmominW rd rs2 rs1 aq rl s := rfl
theorem exec_amomaxW (rd rs2 rs1 : Reg) (aq rl : BitVec 1) (s : State) :
    exec (.amomaxW rd rs2 rs1 aq rl) s =
      execAmomaxW rd rs2 rs1 aq rl s := rfl
theorem exec_amominuW (rd rs2 rs1 : Reg) (aq rl : BitVec 1) (s : State) :
    exec (.amominuW rd rs2 rs1 aq rl) s =
      execAmominuW rd rs2 rs1 aq rl s := rfl
theorem exec_amomaxuW (rd rs2 rs1 : Reg) (aq rl : BitVec 1) (s : State) :
    exec (.amomaxuW rd rs2 rs1 aq rl) s =
      execAmomaxuW rd rs2 rs1 aq rl s := rfl
theorem exec_cAddi4spn (rd : CReg) (imm : BitVec 10) (s : State) : exec (.cAddi4spn rd imm) s = execCAddi4spn rd imm s := rfl
theorem exec_cLw (rd rs1 : CReg) (imm : BitVec 7) (s : State) : exec (.cLw rd rs1 imm) s = execCLw rd rs1 imm s := rfl
theorem exec_cSw (rs2 rs1 : CReg) (imm : BitVec 7) (s : State) : exec (.cSw rs2 rs1 imm) s = execCSw rs2 rs1 imm s := rfl
theorem exec_cNop (imm : BitVec 6) (s : State) : exec (.cNop imm) s = execCNop imm s := rfl
theorem exec_cAddi (rd : Reg) (imm : BitVec 6) (s : State) : exec (.cAddi rd imm) s = execCAddi rd imm s := rfl
theorem exec_cJal (imm : BitVec 12) (s : State) : exec (.cJal imm) s = execCJal imm s := rfl
theorem exec_cLi (rd : Reg) (imm : BitVec 6) (s : State) : exec (.cLi rd imm) s = execCLi rd imm s := rfl
theorem exec_cAddi16sp (imm : BitVec 10) (s : State) : exec (.cAddi16sp imm) s = execCAddi16sp imm s := rfl
theorem exec_cLui (rd : Reg) (imm : BitVec 6) (s : State) : exec (.cLui rd imm) s = execCLui rd imm s := rfl
theorem exec_cSrli (rd : CReg) (shamt : BitVec 5) (s : State) : exec (.cSrli rd shamt) s = execCSrli rd shamt s := rfl
theorem exec_cSrai (rd : CReg) (shamt : BitVec 5) (s : State) : exec (.cSrai rd shamt) s = execCSrai rd shamt s := rfl
theorem exec_cAndi (rd : CReg) (imm : BitVec 6) (s : State) : exec (.cAndi rd imm) s = execCAndi rd imm s := rfl
theorem exec_cSub (rd rs2 : CReg) (s : State) : exec (.cSub rd rs2) s = execCSub rd rs2 s := rfl
theorem exec_cXor (rd rs2 : CReg) (s : State) : exec (.cXor rd rs2) s = execCXor rd rs2 s := rfl
theorem exec_cOr (rd rs2 : CReg) (s : State) : exec (.cOr rd rs2) s = execCOr rd rs2 s := rfl
theorem exec_cAnd (rd rs2 : CReg) (s : State) : exec (.cAnd rd rs2) s = execCAnd rd rs2 s := rfl
theorem exec_cJ (imm : BitVec 12) (s : State) : exec (.cJ imm) s = execCJ imm s := rfl
theorem exec_cBeqz (rs1 : CReg) (imm : BitVec 9) (s : State) : exec (.cBeqz rs1 imm) s = execCBeqz rs1 imm s := rfl
theorem exec_cBnez (rs1 : CReg) (imm : BitVec 9) (s : State) : exec (.cBnez rs1 imm) s = execCBnez rs1 imm s := rfl
theorem exec_cSlli (rd : Reg) (shamt : BitVec 5) (s : State) : exec (.cSlli rd shamt) s = execCSlli rd shamt s := rfl
theorem exec_cLwsp (rd : Reg) (imm : BitVec 8) (s : State) : exec (.cLwsp rd imm) s = execCLwsp rd imm s := rfl
theorem exec_cJr (rs1 : Reg) (s : State) : exec (.cJr rs1) s = execCJr rs1 s := rfl
theorem exec_cMv (rd rs2 : Reg) (s : State) : exec (.cMv rd rs2) s = execCMv rd rs2 s := rfl
theorem exec_cEbreak (s : State) : exec (.cEbreak) s = execCEbreak s := rfl
theorem exec_cJalr (rs1 : Reg) (s : State) : exec (.cJalr rs1) s = execCJalr rs1 s := rfl
theorem exec_cAdd (rd rs2 : Reg) (s : State) : exec (.cAdd rd rs2) s = execCAdd rd rs2 s := rfl
theorem exec_cSwsp (rs2 : Reg) (imm : BitVec 8) (s : State) : exec (.cSwsp rs2 imm) s = execCSwsp rs2 imm s := rfl
theorem exec_sh1add (rd rs1 rs2 : Reg) (s : State) : exec (.sh1add rd rs1 rs2) s = execSh1add rd rs1 rs2 s := rfl
theorem exec_sh2add (rd rs1 rs2 : Reg) (s : State) : exec (.sh2add rd rs1 rs2) s = execSh2add rd rs1 rs2 s := rfl
theorem exec_sh3add (rd rs1 rs2 : Reg) (s : State) : exec (.sh3add rd rs1 rs2) s = execSh3add rd rs1 rs2 s := rfl
theorem exec_andn (rd rs1 rs2 : Reg) (s : State) : exec (.andn rd rs1 rs2) s = execAndn rd rs1 rs2 s := rfl
theorem exec_orn (rd rs1 rs2 : Reg) (s : State) : exec (.orn rd rs1 rs2) s = execOrn rd rs1 rs2 s := rfl
theorem exec_xnor (rd rs1 rs2 : Reg) (s : State) : exec (.xnor rd rs1 rs2) s = execXnor rd rs1 rs2 s := rfl
theorem exec_clz (rd rs1 : Reg) (s : State) : exec (.clz rd rs1) s = execClz rd rs1 s := rfl
theorem exec_ctz (rd rs1 : Reg) (s : State) : exec (.ctz rd rs1) s = execCtz rd rs1 s := rfl
theorem exec_cpop (rd rs1 : Reg) (s : State) : exec (.cpop rd rs1) s = execCpop rd rs1 s := rfl
theorem exec_max (rd rs1 rs2 : Reg) (s : State) : exec (.max rd rs1 rs2) s = execMax rd rs1 rs2 s := rfl
theorem exec_maxu (rd rs1 rs2 : Reg) (s : State) : exec (.maxu rd rs1 rs2) s = execMaxu rd rs1 rs2 s := rfl
theorem exec_min (rd rs1 rs2 : Reg) (s : State) : exec (.min rd rs1 rs2) s = execMin rd rs1 rs2 s := rfl
theorem exec_minu (rd rs1 rs2 : Reg) (s : State) : exec (.minu rd rs1 rs2) s = execMinu rd rs1 rs2 s := rfl
theorem exec_sextB (rd rs1 : Reg) (s : State) : exec (.sextB rd rs1) s = execSextB rd rs1 s := rfl
theorem exec_sextH (rd rs1 : Reg) (s : State) : exec (.sextH rd rs1) s = execSextH rd rs1 s := rfl
theorem exec_zextH (rd rs1 : Reg) (s : State) : exec (.zextH rd rs1) s = execZextH rd rs1 s := rfl
theorem exec_rol (rd rs1 rs2 : Reg) (s : State) : exec (.rol rd rs1 rs2) s = execRol rd rs1 rs2 s := rfl
theorem exec_ror (rd rs1 rs2 : Reg) (s : State) : exec (.ror rd rs1 rs2) s = execRor rd rs1 rs2 s := rfl
theorem exec_rori (rd rs1 : Reg) (shamt : BitVec 5) (s : State) :
    exec (.rori rd rs1 shamt) s =
      execRori rd rs1 shamt s := rfl
theorem exec_orcB (rd rs1 : Reg) (s : State) : exec (.orcB rd rs1) s = execOrcB rd rs1 s := rfl
theorem exec_rev8 (rd rs1 : Reg) (s : State) : exec (.rev8 rd rs1) s = execRev8 rd rs1 s := rfl
theorem exec_bclr (rd rs1 rs2 : Reg) (s : State) : exec (.bclr rd rs1 rs2) s = execBclr rd rs1 rs2 s := rfl
theorem exec_bclri (rd rs1 : Reg) (shamt : BitVec 5) (s : State) :
    exec (.bclri rd rs1 shamt) s =
      execBclri rd rs1 shamt s := rfl
theorem exec_bext (rd rs1 rs2 : Reg) (s : State) : exec (.bext rd rs1 rs2) s = execBext rd rs1 rs2 s := rfl
theorem exec_bexti (rd rs1 : Reg) (shamt : BitVec 5) (s : State) :
    exec (.bexti rd rs1 shamt) s =
      execBexti rd rs1 shamt s := rfl
theorem exec_binv (rd rs1 rs2 : Reg) (s : State) : exec (.binv rd rs1 rs2) s = execBinv rd rs1 rs2 s := rfl
theorem exec_binvi (rd rs1 : Reg) (shamt : BitVec 5) (s : State) :
    exec (.binvi rd rs1 shamt) s =
      execBinvi rd rs1 shamt s := rfl
theorem exec_bset (rd rs1 rs2 : Reg) (s : State) : exec (.bset rd rs1 rs2) s = execBset rd rs1 rs2 s := rfl
theorem exec_bseti (rd rs1 : Reg) (shamt : BitVec 5) (s : State) :
    exec (.bseti rd rs1 shamt) s =
      execBseti rd rs1 shamt s := rfl
theorem exec_cLbu (rd rs1 : Reg) (offset : Word) (s : State) : exec (.cLbu rd rs1 offset) s = execCLbu rd rs1 offset s := rfl
theorem exec_cLhu (rd rs1 : Reg) (offset : Word) (s : State) : exec (.cLhu rd rs1 offset) s = execCLhu rd rs1 offset s := rfl
theorem exec_cSb (rs2 rs1 : Reg) (offset : Word) (s : State) : exec (.cSb rs2 rs1 offset) s = execCSb rs2 rs1 offset s := rfl
theorem exec_cSh (rs2 rs1 : Reg) (offset : Word) (s : State) : exec (.cSh rs2 rs1 offset) s = execCSh rs2 rs1 offset s := rfl
theorem exec_cLbusp (rd : Reg) (offset : Word) (s : State) : exec (.cLbusp rd offset) s = execCLbusp rd offset s := rfl
theorem exec_cLhusp (rd : Reg) (offset : Word) (s : State) : exec (.cLhusp rd offset) s = execCLhusp rd offset s := rfl
theorem exec_cSbsp (rs2 : Reg) (offset : Word) (s : State) : exec (.cSbsp rs2 offset) s = execCSbsp rs2 offset s := rfl
theorem exec_cShsp (rs2 : Reg) (offset : Word) (s : State) : exec (.cShsp rs2 offset) s = execCShsp rs2 offset s := rfl

end Sys2Proof.Machine
end

