-- ==== Sys2Proof/Laws/Instr.lean ====
section
/-! SUPPORT. What the ways an instruction ends can do: a result written back, a jump, a branch, a load, a store. The lemmas are
stated for the shared operation, so a proof about an instruction rewrites `exec` to its operation and cites one of these. -/

namespace Sys2Proof.Machine

/-- A result written back is the whole effect. -/
theorem State.writeBack_effect (s : State) (rd : Reg) (v n : Word) :
    ∃ t, s.writeBack rd v n = .next t ∧ RegEffect s t rd v (s.pc + n) := by
  refine ⟨_, rfl, ⟨s.reg_setReg_self rd v, fun j hj => s.reg_setReg_other rd j v hj, ?_, fun a => ?_, ?_⟩⟩
  · simp
  · unfold State.byteAt; simp
  · unfold SameButRegs State.setReg State.advance; split <;> rfl

/-- A jump with a link is the whole effect. -/
theorem State.jumpLink_effect (s : State) (rd : Reg) (target n : Word) :
    ∃ t, s.jumpLink rd target n = .next t ∧ RegEffect s t rd (s.pc + n) target := by
  refine ⟨_, rfl, ⟨s.reg_setReg_self rd _, fun j hj => s.reg_setReg_other rd j _ hj, rfl, fun a => ?_, ?_⟩⟩
  · unfold State.byteAt; simp
  · unfold SameButRegs State.setReg State.setPc; split <;> rfl

/-- A branch changes the pc and nothing else. -/
theorem State.branch_effect (s : State) (b : Bool) (off n : Word) :
    s.branch b off n = .next { s with pc := if b then s.pc + off else s.pc + n } := by
  unfold State.branch State.setPc State.advance; cases b <;> rfl

/-- A load from memory that the triggers let through ends as a result written back. -/
theorem Loadable.loadTo {s : State} {a : Word} {w : Width} {bs : List Byte} (h : Loadable s a w bs) (rd : Reg)
    (ext : Word → Word) (n : Word) : s.loadTo rd a w ext n = s.writeBack rd (ext (assemble bs)) n := by
  unfold State.loadTo
  simp only [h.quiet, h.load]

/-- A load that gives a next state: a data breakpoint, a result written back after the access, a stopped access, or an access
fault, after which `rd` is free. -/
theorem State.loadTo_next {s u : State} {rd : Reg} {a : Word} {w : Width} {ext : Word → Word} {n : Word}
    (h : s.loadTo rd a w ext n = .next u) :
    (∃ d r, DeviceOnly s d ∧ (d.setReg rd r).raise .breakpoint s.pc = .next u) ∨
      (∃ v d, s.load a w = .ok (v, d) ∧ d.writeBack rd (ext v) n = .next u) ∨
      (∃ e info d, (d = s ∨ d = s.drawn) ∧ d.raise e info = .next u) ∨
      ∃ info, (s.faultingLoad rd).raise .loadAccess info = .next u := by
  unfold State.loadTo at h
  split at h
  · cases h
  · unfold State.dataBreakpoint at h
    cases hl : s.load a w with
    | ok p =>
      obtain ⟨v, d⟩ := p
      simp only [hl] at h
      split at h
      · refine .inl ⟨d.drawn, ext v, (State.load_device hl).drawn, ?_⟩
        have e : (d.drawn.setReg rd (ext v)) = (d.setReg rd (ext v)).drawn := by
          unfold State.setReg; split <;> rfl
        show State.raise (d.drawn.setReg rd (ext v)) _ _ = _
        rw [e]; exact h
      · exact .inr (.inr (.inl ⟨_, _, s.drawn, .inr rfl, h⟩))
    | error e =>
      simp only [hl] at h
      exact .inr (.inr (.inl ⟨_, _, s, .inl rfl, h⟩))
  · split at h
    · rename_i v d hl; exact .inr (.inl ⟨v, d, hl, h⟩)
    · rename_i e hl
      refine .inr (.inr ?_)
      cases e with
      | exn e info =>
        by_cases he : e = .loadAccess
        · subst he; exact .inr ⟨info, h⟩
        · refine .inl ⟨e, info, s, .inl rfl, ?_⟩
          rw [← h]
          cases e <;> first | rfl | exact absurd rfl he
      | fault f => cases h
      | refused r => cases h
      | restart t => exact absurd hl (State.load_noRestart s a w t)

/-- In debug mode a load that ends in an access fault ends the program buffer; `rd` is free, every other register stays
(20 R120, 61 R630). -/
theorem State.faultingLoad_raise {s : State} (h : s.debugMode = true) (rd : Reg) (e : Exc) (info : Word) :
    ∃ t, (s.faultingLoad rd).raise e info = .next t ∧ SameRegsBut s t rd ∧
      t = { s.progbufFail with regs := t.regs, draws := s.draws + 1 } := by
  have hd : (s.faultingLoad rd).debugMode = true := by
    unfold State.faultingLoad; rw [State.setReg_debugMode]; exact h
  refine ⟨(s.faultingLoad rd).progbufFail, by unfold State.raise; rw [if_pos hd], fun j hj => ?_, ?_⟩
  · exact s.drawn.reg_setReg_other rd j _ hj
  · unfold State.progbufFail State.faultingLoad State.setReg
    split <;> rfl

/-- The state after a store to RAM that the triggers let through. -/
theorem Storable.storeFrom {s : State} {a : Word} {w : Width} (h : Storable s a w) (v n : Word) :
    s.storeFrom a w v n = .next (((s.storeClears a).setBytes (w.addrs a) (w.bytes v)).advance n) := by
  unfold State.storeFrom
  simp only [h.quiet, h.store v]

/-- A store that gives a next state: a data breakpoint with the access performed or not, the access performed, a stopped
access, or a restart, which a data breakpoint may leave out. -/
theorem State.storeFrom_next {s u : State} {a v : Word} {w : Width} {n : Word} (h : s.storeFrom a w v n = .next u) :
    (∃ d, s.store a w v = .ok d ∧ d.drawn.raise .breakpoint s.pc = .next u) ∨
      (∃ d, s.store a w v = .ok d ∧ u = d.advance n) ∨
      (∃ e info d, (d = s ∨ d = s.drawn) ∧ d.raise e info = .next u) ∨
      ∃ d, s.store a w v = .error (.restart d) ∧ (u = d ∨ u = d.drawn) := by
  unfold State.storeFrom at h
  split at h
  · cases h
  · unfold State.dataBreakpoint at h
    split at h
    · rename_i d hl
      simp only at h
      split at h
      · exact .inl ⟨d, hl, h⟩
      · exact .inr (.inr (.inl ⟨_, _, s.drawn, .inr rfl, h⟩))
    · rename_i d hl
      split at h
      · simp only [Host.Outcome.next.injEq] at h
        exact .inr (.inr (.inr ⟨d, hl, .inr h.symm⟩))
      · exact .inr (.inr (.inl ⟨_, _, s.drawn, .inr rfl, h⟩))
    · exact .inr (.inr (.inl ⟨_, _, s, .inl rfl, h⟩))
  · split at h
    · rename_i d hl
      simp only [Host.Outcome.next.injEq] at h
      exact .inr (.inl ⟨d, hl, h.symm⟩)
    · rename_i e hl
      cases e with
      | exn e info => exact .inr (.inr (.inl ⟨e, info, s, .inl rfl, h⟩))
      | fault f => cases h
      | refused r => cases h
      | restart t =>
        simp only [State.stop, Host.Outcome.next.injEq] at h
        exact .inr (.inr (.inr ⟨t, hl, .inl h.symm⟩))

/-- The effect of a store to RAM. -/
theorem Storable.effect {s : State} {a : Word} {w : Width} (_h : Storable s a w) (v n : Word) :
    let t := ((s.storeClears a).setBytes (w.addrs a) (w.bytes v)).advance n
    StoredAt s t a w v ∧ (∀ j, t.reg j = s.reg j) ∧ t.pc = s.pc + n ∧ SameButStore s t ∧ ReservationMay s t a := by
  intro t
  have hc := s.storeClears_eq a
  have hb := State.setBytes_eq (s.storeClears a) (w.addrs a) (w.bytes v)
  have hmem : ∀ b, b ∉ w.addrs a → t.byteAt b = s.byteAt b := fun b hb' => by
    have := State.byteAt_setBytes_other (s.storeClears a) (w.addrs a) (w.bytes v) b hb'
    unfold State.byteAt at this ⊢
    rw [State.storeClears_mem] at this
    exact this
  have hregs : t.regs = s.regs := by
    show ((s.storeClears a).setBytes (w.addrs a) (w.bytes v)).regs = _
    rw [hb, hc]
  refine ⟨⟨?_, hmem⟩, fun j => State.reg_congr hregs j, ?_, ?_, ?_⟩
  · have := State.stored_bytes (s.storeClears a) w a v
    unfold BytesAre
    rw [← this]
    exact State.bytesAt_congr _ fun _ => rfl
  · show ((s.storeClears a).setBytes (w.addrs a) (w.bytes v)).pc + n = _
    rw [hb, hc]
  · show t = _
    have : t = ((s.storeClears a).setBytes (w.addrs a) (w.bytes v)).advance n := rfl
    rw [this, hb, hc]
    rfl
  · have hr : t.reservation = (s.storeClears a).reservation := by
      show ((s.storeClears a).setBytes (w.addrs a) (w.bytes v)).reservation = _
      rw [hb]
    unfold ReservationMay
    rw [hr]
    unfold State.storeClears
    split
    · exact .inl rfl
    · rename_i r hres
      split
      · rename_i hg
        show (if Config.freeBool s.draws then none else some r) = _ ∨ _
        split
        · exact .inr ⟨rfl, r, hres, hg⟩
        · exact .inl hres.symm
      · exact .inl rfl

end Sys2Proof.Machine
end

