-- ==== Sys2Proof/Laws/PerInstr.lean ====
section
/-! SUPPORT. Laws about every instruction as syntax, one lemma for each constructor. `LengthBits`: the low two bits of an
encoding say its length (30_encoding.md R150), the XW rows aside, whose encodings are a parameter. -/

namespace Sys2Proof.Laws.LengthBits

/-- A parcel that is a whole instruction does not end in 11; a 32-bit instruction does. -/
def lowBits : Fetched → Bool
  | .half p => p.extractLsb' 0 2 != 3#2
  | .full w => w.extractLsb' 0 2 == 3#2

/-- The encoding of the instruction carries its length in its low two bits. -/
def Statement (i : Instr) : Prop := ∀ c f, i.isXw = false → i.encode c = some f → lowBits f = true

/-- A word ends in the low bits of its opcode. -/
theorem of_word32 (f7 : BitVec 7) (rs2 rs1 : Reg) (f3 : BitVec 3) (rd : Reg) (op : BitVec 7)
    (h : op.extractLsb' 0 2 = 3#2) : lowBits (.full (word32 f7 rs2 rs1 f3 rd op)) = true := by
  have h1 := opcodeOf_word32 f7 rs2 rs1 f3 rd op
  rw [← h1] at h
  unfold lowBits
  rw [beq_iff_eq, ← h]
  ext i hi
  interval_cases i <;> simp [opcodeOf]

/-- A parcel ends in its quadrant. -/
theorem of_word16 (f3 : BitVec 3) (b12 : BitVec 1) (hi : BitVec 2) (ra : BitVec 3) (mid : BitVec 2) (rb : BitVec 3)
    (op : BitVec 2) (h : op ≠ 3#2) : lowBits (.half (word16 f3 b12 hi ra mid rb op)) = true := by
  simp [lowBits, h]

theorem lui (rd : Reg) (imm : BitVec 20) : Statement (.lui rd imm) :=
  fun _ _ _ h => by cases h; exact of_word32 _ _ _ _ _ _ (by decide)
theorem auipc (rd : Reg) (imm : BitVec 20) : Statement (.auipc rd imm) :=
  fun _ _ _ h => by cases h; exact of_word32 _ _ _ _ _ _ (by decide)
theorem jal (rd : Reg) (imm : BitVec 21) : Statement (.jal rd imm) :=
  fun _ _ _ h => by cases h; exact of_word32 _ _ _ _ _ _ (by decide)
theorem jalr (rd rs1 : Reg) (imm : BitVec 12) : Statement (.jalr rd rs1 imm) :=
  fun _ _ _ h => by cases h; exact of_word32 _ _ _ _ _ _ (by decide)
theorem beq (rs1 rs2 : Reg) (imm : BitVec 13) : Statement (.beq rs1 rs2 imm) :=
  fun _ _ _ h => by cases h; exact of_word32 _ _ _ _ _ _ (by decide)
theorem bne (rs1 rs2 : Reg) (imm : BitVec 13) : Statement (.bne rs1 rs2 imm) :=
  fun _ _ _ h => by cases h; exact of_word32 _ _ _ _ _ _ (by decide)
theorem blt (rs1 rs2 : Reg) (imm : BitVec 13) : Statement (.blt rs1 rs2 imm) :=
  fun _ _ _ h => by cases h; exact of_word32 _ _ _ _ _ _ (by decide)
theorem bge (rs1 rs2 : Reg) (imm : BitVec 13) : Statement (.bge rs1 rs2 imm) :=
  fun _ _ _ h => by cases h; exact of_word32 _ _ _ _ _ _ (by decide)
theorem bltu (rs1 rs2 : Reg) (imm : BitVec 13) : Statement (.bltu rs1 rs2 imm) :=
  fun _ _ _ h => by cases h; exact of_word32 _ _ _ _ _ _ (by decide)
theorem bgeu (rs1 rs2 : Reg) (imm : BitVec 13) : Statement (.bgeu rs1 rs2 imm) :=
  fun _ _ _ h => by cases h; exact of_word32 _ _ _ _ _ _ (by decide)
theorem lb (rd rs1 : Reg) (imm : BitVec 12) : Statement (.lb rd rs1 imm) :=
  fun _ _ _ h => by cases h; exact of_word32 _ _ _ _ _ _ (by decide)
theorem lh (rd rs1 : Reg) (imm : BitVec 12) : Statement (.lh rd rs1 imm) :=
  fun _ _ _ h => by cases h; exact of_word32 _ _ _ _ _ _ (by decide)
theorem lw (rd rs1 : Reg) (imm : BitVec 12) : Statement (.lw rd rs1 imm) :=
  fun _ _ _ h => by cases h; exact of_word32 _ _ _ _ _ _ (by decide)
theorem lbu (rd rs1 : Reg) (imm : BitVec 12) : Statement (.lbu rd rs1 imm) :=
  fun _ _ _ h => by cases h; exact of_word32 _ _ _ _ _ _ (by decide)
theorem lhu (rd rs1 : Reg) (imm : BitVec 12) : Statement (.lhu rd rs1 imm) :=
  fun _ _ _ h => by cases h; exact of_word32 _ _ _ _ _ _ (by decide)
theorem sb (rs2 rs1 : Reg) (imm : BitVec 12) : Statement (.sb rs2 rs1 imm) :=
  fun _ _ _ h => by cases h; exact of_word32 _ _ _ _ _ _ (by decide)
theorem sh (rs2 rs1 : Reg) (imm : BitVec 12) : Statement (.sh rs2 rs1 imm) :=
  fun _ _ _ h => by cases h; exact of_word32 _ _ _ _ _ _ (by decide)
theorem sw (rs2 rs1 : Reg) (imm : BitVec 12) : Statement (.sw rs2 rs1 imm) :=
  fun _ _ _ h => by cases h; exact of_word32 _ _ _ _ _ _ (by decide)
theorem addi (rd rs1 : Reg) (imm : BitVec 12) : Statement (.addi rd rs1 imm) :=
  fun _ _ _ h => by cases h; exact of_word32 _ _ _ _ _ _ (by decide)
theorem slti (rd rs1 : Reg) (imm : BitVec 12) : Statement (.slti rd rs1 imm) :=
  fun _ _ _ h => by cases h; exact of_word32 _ _ _ _ _ _ (by decide)
theorem sltiu (rd rs1 : Reg) (imm : BitVec 12) : Statement (.sltiu rd rs1 imm) :=
  fun _ _ _ h => by cases h; exact of_word32 _ _ _ _ _ _ (by decide)
theorem xori (rd rs1 : Reg) (imm : BitVec 12) : Statement (.xori rd rs1 imm) :=
  fun _ _ _ h => by cases h; exact of_word32 _ _ _ _ _ _ (by decide)
theorem ori (rd rs1 : Reg) (imm : BitVec 12) : Statement (.ori rd rs1 imm) :=
  fun _ _ _ h => by cases h; exact of_word32 _ _ _ _ _ _ (by decide)
theorem andi (rd rs1 : Reg) (imm : BitVec 12) : Statement (.andi rd rs1 imm) :=
  fun _ _ _ h => by cases h; exact of_word32 _ _ _ _ _ _ (by decide)
theorem slli (rd rs1 : Reg) (shamt : BitVec 5) : Statement (.slli rd rs1 shamt) :=
  fun _ _ _ h => by cases h; exact of_word32 _ _ _ _ _ _ (by decide)
theorem srli (rd rs1 : Reg) (shamt : BitVec 5) : Statement (.srli rd rs1 shamt) :=
  fun _ _ _ h => by cases h; exact of_word32 _ _ _ _ _ _ (by decide)
theorem srai (rd rs1 : Reg) (shamt : BitVec 5) : Statement (.srai rd rs1 shamt) :=
  fun _ _ _ h => by cases h; exact of_word32 _ _ _ _ _ _ (by decide)
theorem add (rd rs1 rs2 : Reg) : Statement (.add rd rs1 rs2) :=
  fun _ _ _ h => by cases h; exact of_word32 _ _ _ _ _ _ (by decide)
theorem sub (rd rs1 rs2 : Reg) : Statement (.sub rd rs1 rs2) :=
  fun _ _ _ h => by cases h; exact of_word32 _ _ _ _ _ _ (by decide)
theorem sll (rd rs1 rs2 : Reg) : Statement (.sll rd rs1 rs2) :=
  fun _ _ _ h => by cases h; exact of_word32 _ _ _ _ _ _ (by decide)
theorem slt (rd rs1 rs2 : Reg) : Statement (.slt rd rs1 rs2) :=
  fun _ _ _ h => by cases h; exact of_word32 _ _ _ _ _ _ (by decide)
theorem sltu (rd rs1 rs2 : Reg) : Statement (.sltu rd rs1 rs2) :=
  fun _ _ _ h => by cases h; exact of_word32 _ _ _ _ _ _ (by decide)
theorem xor (rd rs1 rs2 : Reg) : Statement (.xor rd rs1 rs2) :=
  fun _ _ _ h => by cases h; exact of_word32 _ _ _ _ _ _ (by decide)
theorem srl (rd rs1 rs2 : Reg) : Statement (.srl rd rs1 rs2) :=
  fun _ _ _ h => by cases h; exact of_word32 _ _ _ _ _ _ (by decide)
theorem sra (rd rs1 rs2 : Reg) : Statement (.sra rd rs1 rs2) :=
  fun _ _ _ h => by cases h; exact of_word32 _ _ _ _ _ _ (by decide)
theorem or (rd rs1 rs2 : Reg) : Statement (.or rd rs1 rs2) :=
  fun _ _ _ h => by cases h; exact of_word32 _ _ _ _ _ _ (by decide)
theorem and (rd rs1 rs2 : Reg) : Statement (.and rd rs1 rs2) :=
  fun _ _ _ h => by cases h; exact of_word32 _ _ _ _ _ _ (by decide)
theorem fence (fm pred succ : BitVec 4) (rs1 rd : Reg) : Statement (.fence fm pred succ rs1 rd) :=
  fun _ _ _ h => by cases h; exact of_word32 _ _ _ _ _ _ (by decide)
theorem ecall : Statement (.ecall) :=
  fun _ _ _ h => by cases h; decide
theorem ebreak : Statement (.ebreak) :=
  fun _ _ _ h => by cases h; decide
theorem csrrw (rd : Reg) (csr : CsrNum) (rs1 : Reg) : Statement (.csrrw rd csr rs1) :=
  fun _ _ _ h => by cases h; exact of_word32 _ _ _ _ _ _ (by decide)
theorem csrrs (rd : Reg) (csr : CsrNum) (rs1 : Reg) : Statement (.csrrs rd csr rs1) :=
  fun _ _ _ h => by cases h; exact of_word32 _ _ _ _ _ _ (by decide)
theorem csrrc (rd : Reg) (csr : CsrNum) (rs1 : Reg) : Statement (.csrrc rd csr rs1) :=
  fun _ _ _ h => by cases h; exact of_word32 _ _ _ _ _ _ (by decide)
theorem csrrwi (rd : Reg) (csr : CsrNum) (uimm : BitVec 5) : Statement (.csrrwi rd csr uimm) :=
  fun _ _ _ h => by cases h; exact of_word32 _ _ _ _ _ _ (by decide)
theorem csrrsi (rd : Reg) (csr : CsrNum) (uimm : BitVec 5) : Statement (.csrrsi rd csr uimm) :=
  fun _ _ _ h => by cases h; exact of_word32 _ _ _ _ _ _ (by decide)
theorem csrrci (rd : Reg) (csr : CsrNum) (uimm : BitVec 5) : Statement (.csrrci rd csr uimm) :=
  fun _ _ _ h => by cases h; exact of_word32 _ _ _ _ _ _ (by decide)
theorem mret : Statement (.mret) :=
  fun _ _ _ h => by cases h; decide
theorem wfi : Statement (.wfi) :=
  fun _ _ _ h => by cases h; decide
theorem fenceI (imm : BitVec 12) (rs1 rd : Reg) : Statement (.fenceI imm rs1 rd) :=
  fun _ _ _ h => by cases h; exact of_word32 _ _ _ _ _ _ (by decide)
theorem mul (rd rs1 rs2 : Reg) : Statement (.mul rd rs1 rs2) :=
  fun _ _ _ h => by cases h; exact of_word32 _ _ _ _ _ _ (by decide)
theorem mulh (rd rs1 rs2 : Reg) : Statement (.mulh rd rs1 rs2) :=
  fun _ _ _ h => by cases h; exact of_word32 _ _ _ _ _ _ (by decide)
theorem mulhsu (rd rs1 rs2 : Reg) : Statement (.mulhsu rd rs1 rs2) :=
  fun _ _ _ h => by cases h; exact of_word32 _ _ _ _ _ _ (by decide)
theorem mulhu (rd rs1 rs2 : Reg) : Statement (.mulhu rd rs1 rs2) :=
  fun _ _ _ h => by cases h; exact of_word32 _ _ _ _ _ _ (by decide)
theorem div (rd rs1 rs2 : Reg) : Statement (.div rd rs1 rs2) :=
  fun _ _ _ h => by cases h; exact of_word32 _ _ _ _ _ _ (by decide)
theorem divu (rd rs1 rs2 : Reg) : Statement (.divu rd rs1 rs2) :=
  fun _ _ _ h => by cases h; exact of_word32 _ _ _ _ _ _ (by decide)
theorem rem (rd rs1 rs2 : Reg) : Statement (.rem rd rs1 rs2) :=
  fun _ _ _ h => by cases h; exact of_word32 _ _ _ _ _ _ (by decide)
theorem remu (rd rs1 rs2 : Reg) : Statement (.remu rd rs1 rs2) :=
  fun _ _ _ h => by cases h; exact of_word32 _ _ _ _ _ _ (by decide)
theorem lrW (rd rs1 : Reg) (aq rl : BitVec 1) : Statement (.lrW rd rs1 aq rl) :=
  fun _ _ _ h => by cases h; exact of_word32 _ _ _ _ _ _ (by decide)
theorem scW (rd rs2 rs1 : Reg) (aq rl : BitVec 1) : Statement (.scW rd rs2 rs1 aq rl) :=
  fun _ _ _ h => by cases h; exact of_word32 _ _ _ _ _ _ (by decide)
theorem amoswapW (rd rs2 rs1 : Reg) (aq rl : BitVec 1) : Statement (.amoswapW rd rs2 rs1 aq rl) :=
  fun _ _ _ h => by cases h; exact of_word32 _ _ _ _ _ _ (by decide)
theorem amoaddW (rd rs2 rs1 : Reg) (aq rl : BitVec 1) : Statement (.amoaddW rd rs2 rs1 aq rl) :=
  fun _ _ _ h => by cases h; exact of_word32 _ _ _ _ _ _ (by decide)
theorem amoxorW (rd rs2 rs1 : Reg) (aq rl : BitVec 1) : Statement (.amoxorW rd rs2 rs1 aq rl) :=
  fun _ _ _ h => by cases h; exact of_word32 _ _ _ _ _ _ (by decide)
theorem amoandW (rd rs2 rs1 : Reg) (aq rl : BitVec 1) : Statement (.amoandW rd rs2 rs1 aq rl) :=
  fun _ _ _ h => by cases h; exact of_word32 _ _ _ _ _ _ (by decide)
theorem amoorW (rd rs2 rs1 : Reg) (aq rl : BitVec 1) : Statement (.amoorW rd rs2 rs1 aq rl) :=
  fun _ _ _ h => by cases h; exact of_word32 _ _ _ _ _ _ (by decide)
theorem amominW (rd rs2 rs1 : Reg) (aq rl : BitVec 1) : Statement (.amominW rd rs2 rs1 aq rl) :=
  fun _ _ _ h => by cases h; exact of_word32 _ _ _ _ _ _ (by decide)
theorem amomaxW (rd rs2 rs1 : Reg) (aq rl : BitVec 1) : Statement (.amomaxW rd rs2 rs1 aq rl) :=
  fun _ _ _ h => by cases h; exact of_word32 _ _ _ _ _ _ (by decide)
theorem amominuW (rd rs2 rs1 : Reg) (aq rl : BitVec 1) : Statement (.amominuW rd rs2 rs1 aq rl) :=
  fun _ _ _ h => by cases h; exact of_word32 _ _ _ _ _ _ (by decide)
theorem amomaxuW (rd rs2 rs1 : Reg) (aq rl : BitVec 1) : Statement (.amomaxuW rd rs2 rs1 aq rl) :=
  fun _ _ _ h => by cases h; exact of_word32 _ _ _ _ _ _ (by decide)
theorem cAddi4spn (rd : CReg) (uimm : BitVec 10) : Statement (.cAddi4spn rd uimm) :=
  fun _ _ _ h => by cases h; exact of_word16 _ _ _ _ _ _ _ (by decide)
theorem cLw (rd rs1 : CReg) (uimm : BitVec 7) : Statement (.cLw rd rs1 uimm) :=
  fun _ _ _ h => by cases h; exact of_word16 _ _ _ _ _ _ _ (by decide)
theorem cSw (rs2 rs1 : CReg) (uimm : BitVec 7) : Statement (.cSw rs2 rs1 uimm) :=
  fun _ _ _ h => by cases h; exact of_word16 _ _ _ _ _ _ _ (by decide)
theorem cNop (imm : BitVec 6) : Statement (.cNop imm) :=
  fun _ _ _ h => by cases h; exact of_word16 _ _ _ _ _ _ _ (by decide)
theorem cAddi (rd : Reg) (imm : BitVec 6) : Statement (.cAddi rd imm) :=
  fun _ _ _ h => by cases h; exact of_word16 _ _ _ _ _ _ _ (by decide)
theorem cJal (imm : BitVec 12) : Statement (.cJal imm) :=
  fun _ _ _ h => by cases h; exact of_word16 _ _ _ _ _ _ _ (by decide)
theorem cLi (rd : Reg) (imm : BitVec 6) : Statement (.cLi rd imm) :=
  fun _ _ _ h => by cases h; exact of_word16 _ _ _ _ _ _ _ (by decide)
theorem cAddi16sp (imm : BitVec 10) : Statement (.cAddi16sp imm) :=
  fun _ _ _ h => by cases h; exact of_word16 _ _ _ _ _ _ _ (by decide)
theorem cLui (rd : Reg) (imm : BitVec 6) : Statement (.cLui rd imm) :=
  fun _ _ _ h => by cases h; exact of_word16 _ _ _ _ _ _ _ (by decide)
theorem cSrli (rd : CReg) (shamt : BitVec 5) : Statement (.cSrli rd shamt) :=
  fun _ _ _ h => by cases h; exact of_word16 _ _ _ _ _ _ _ (by decide)
theorem cSrai (rd : CReg) (shamt : BitVec 5) : Statement (.cSrai rd shamt) :=
  fun _ _ _ h => by cases h; exact of_word16 _ _ _ _ _ _ _ (by decide)
theorem cAndi (rd : CReg) (imm : BitVec 6) : Statement (.cAndi rd imm) :=
  fun _ _ _ h => by cases h; exact of_word16 _ _ _ _ _ _ _ (by decide)
theorem cSub (rd rs2 : CReg) : Statement (.cSub rd rs2) :=
  fun _ _ _ h => by cases h; exact of_word16 _ _ _ _ _ _ _ (by decide)
theorem cXor (rd rs2 : CReg) : Statement (.cXor rd rs2) :=
  fun _ _ _ h => by cases h; exact of_word16 _ _ _ _ _ _ _ (by decide)
theorem cOr (rd rs2 : CReg) : Statement (.cOr rd rs2) :=
  fun _ _ _ h => by cases h; exact of_word16 _ _ _ _ _ _ _ (by decide)
theorem cAnd (rd rs2 : CReg) : Statement (.cAnd rd rs2) :=
  fun _ _ _ h => by cases h; exact of_word16 _ _ _ _ _ _ _ (by decide)
theorem cJ (imm : BitVec 12) : Statement (.cJ imm) :=
  fun _ _ _ h => by cases h; exact of_word16 _ _ _ _ _ _ _ (by decide)
theorem cBeqz (rs1 : CReg) (imm : BitVec 9) : Statement (.cBeqz rs1 imm) :=
  fun _ _ _ h => by cases h; exact of_word16 _ _ _ _ _ _ _ (by decide)
theorem cBnez (rs1 : CReg) (imm : BitVec 9) : Statement (.cBnez rs1 imm) :=
  fun _ _ _ h => by cases h; exact of_word16 _ _ _ _ _ _ _ (by decide)
theorem cSlli (rd : Reg) (shamt : BitVec 5) : Statement (.cSlli rd shamt) :=
  fun _ _ _ h => by cases h; exact of_word16 _ _ _ _ _ _ _ (by decide)
theorem cLwsp (rd : Reg) (uimm : BitVec 8) : Statement (.cLwsp rd uimm) :=
  fun _ _ _ h => by cases h; exact of_word16 _ _ _ _ _ _ _ (by decide)
theorem cJr (rs1 : Reg) : Statement (.cJr rs1) :=
  fun _ _ _ h => by cases h; exact of_word16 _ _ _ _ _ _ _ (by decide)
theorem cMv (rd rs2 : Reg) : Statement (.cMv rd rs2) :=
  fun _ _ _ h => by cases h; exact of_word16 _ _ _ _ _ _ _ (by decide)
theorem cEbreak : Statement (.cEbreak) :=
  fun _ _ _ h => by cases h; exact of_word16 _ _ _ _ _ _ _ (by decide)
theorem cJalr (rs1 : Reg) : Statement (.cJalr rs1) :=
  fun _ _ _ h => by cases h; exact of_word16 _ _ _ _ _ _ _ (by decide)
theorem cAdd (rd rs2 : Reg) : Statement (.cAdd rd rs2) :=
  fun _ _ _ h => by cases h; exact of_word16 _ _ _ _ _ _ _ (by decide)
theorem cSwsp (rs2 : Reg) (uimm : BitVec 8) : Statement (.cSwsp rs2 uimm) :=
  fun _ _ _ h => by cases h; exact of_word16 _ _ _ _ _ _ _ (by decide)
theorem sh1add (rd rs1 rs2 : Reg) : Statement (.sh1add rd rs1 rs2) :=
  fun _ _ _ h => by cases h; exact of_word32 _ _ _ _ _ _ (by decide)
theorem sh2add (rd rs1 rs2 : Reg) : Statement (.sh2add rd rs1 rs2) :=
  fun _ _ _ h => by cases h; exact of_word32 _ _ _ _ _ _ (by decide)
theorem sh3add (rd rs1 rs2 : Reg) : Statement (.sh3add rd rs1 rs2) :=
  fun _ _ _ h => by cases h; exact of_word32 _ _ _ _ _ _ (by decide)
theorem andn (rd rs1 rs2 : Reg) : Statement (.andn rd rs1 rs2) :=
  fun _ _ _ h => by cases h; exact of_word32 _ _ _ _ _ _ (by decide)
theorem orn (rd rs1 rs2 : Reg) : Statement (.orn rd rs1 rs2) :=
  fun _ _ _ h => by cases h; exact of_word32 _ _ _ _ _ _ (by decide)
theorem xnor (rd rs1 rs2 : Reg) : Statement (.xnor rd rs1 rs2) :=
  fun _ _ _ h => by cases h; exact of_word32 _ _ _ _ _ _ (by decide)
theorem clz (rd rs1 : Reg) : Statement (.clz rd rs1) :=
  fun _ _ _ h => by cases h; exact of_word32 _ _ _ _ _ _ (by decide)
theorem ctz (rd rs1 : Reg) : Statement (.ctz rd rs1) :=
  fun _ _ _ h => by cases h; exact of_word32 _ _ _ _ _ _ (by decide)
theorem cpop (rd rs1 : Reg) : Statement (.cpop rd rs1) :=
  fun _ _ _ h => by cases h; exact of_word32 _ _ _ _ _ _ (by decide)
theorem max (rd rs1 rs2 : Reg) : Statement (.max rd rs1 rs2) :=
  fun _ _ _ h => by cases h; exact of_word32 _ _ _ _ _ _ (by decide)
theorem maxu (rd rs1 rs2 : Reg) : Statement (.maxu rd rs1 rs2) :=
  fun _ _ _ h => by cases h; exact of_word32 _ _ _ _ _ _ (by decide)
theorem min (rd rs1 rs2 : Reg) : Statement (.min rd rs1 rs2) :=
  fun _ _ _ h => by cases h; exact of_word32 _ _ _ _ _ _ (by decide)
theorem minu (rd rs1 rs2 : Reg) : Statement (.minu rd rs1 rs2) :=
  fun _ _ _ h => by cases h; exact of_word32 _ _ _ _ _ _ (by decide)
theorem sextB (rd rs1 : Reg) : Statement (.sextB rd rs1) :=
  fun _ _ _ h => by cases h; exact of_word32 _ _ _ _ _ _ (by decide)
theorem sextH (rd rs1 : Reg) : Statement (.sextH rd rs1) :=
  fun _ _ _ h => by cases h; exact of_word32 _ _ _ _ _ _ (by decide)
theorem zextH (rd rs1 : Reg) : Statement (.zextH rd rs1) :=
  fun _ _ _ h => by cases h; exact of_word32 _ _ _ _ _ _ (by decide)
theorem rol (rd rs1 rs2 : Reg) : Statement (.rol rd rs1 rs2) :=
  fun _ _ _ h => by cases h; exact of_word32 _ _ _ _ _ _ (by decide)
theorem ror (rd rs1 rs2 : Reg) : Statement (.ror rd rs1 rs2) :=
  fun _ _ _ h => by cases h; exact of_word32 _ _ _ _ _ _ (by decide)
theorem rori (rd rs1 : Reg) (shamt : BitVec 5) : Statement (.rori rd rs1 shamt) :=
  fun _ _ _ h => by cases h; exact of_word32 _ _ _ _ _ _ (by decide)
theorem orcB (rd rs1 : Reg) : Statement (.orcB rd rs1) :=
  fun _ _ _ h => by cases h; exact of_word32 _ _ _ _ _ _ (by decide)
theorem rev8 (rd rs1 : Reg) : Statement (.rev8 rd rs1) :=
  fun _ _ _ h => by cases h; exact of_word32 _ _ _ _ _ _ (by decide)
theorem bclr (rd rs1 rs2 : Reg) : Statement (.bclr rd rs1 rs2) :=
  fun _ _ _ h => by cases h; exact of_word32 _ _ _ _ _ _ (by decide)
theorem bclri (rd rs1 : Reg) (shamt : BitVec 5) : Statement (.bclri rd rs1 shamt) :=
  fun _ _ _ h => by cases h; exact of_word32 _ _ _ _ _ _ (by decide)
theorem bext (rd rs1 rs2 : Reg) : Statement (.bext rd rs1 rs2) :=
  fun _ _ _ h => by cases h; exact of_word32 _ _ _ _ _ _ (by decide)
theorem bexti (rd rs1 : Reg) (shamt : BitVec 5) : Statement (.bexti rd rs1 shamt) :=
  fun _ _ _ h => by cases h; exact of_word32 _ _ _ _ _ _ (by decide)
theorem binv (rd rs1 rs2 : Reg) : Statement (.binv rd rs1 rs2) :=
  fun _ _ _ h => by cases h; exact of_word32 _ _ _ _ _ _ (by decide)
theorem binvi (rd rs1 : Reg) (shamt : BitVec 5) : Statement (.binvi rd rs1 shamt) :=
  fun _ _ _ h => by cases h; exact of_word32 _ _ _ _ _ _ (by decide)
theorem bset (rd rs1 rs2 : Reg) : Statement (.bset rd rs1 rs2) :=
  fun _ _ _ h => by cases h; exact of_word32 _ _ _ _ _ _ (by decide)
theorem bseti (rd rs1 : Reg) (shamt : BitVec 5) : Statement (.bseti rd rs1 shamt) :=
  fun _ _ _ h => by cases h; exact of_word32 _ _ _ _ _ _ (by decide)
theorem cLbu (rd rs1 : Reg) (uimm : Word) : Statement (.cLbu rd rs1 uimm) :=
  fun _ _ hx _ => nomatch hx
theorem cLhu (rd rs1 : Reg) (uimm : Word) : Statement (.cLhu rd rs1 uimm) :=
  fun _ _ hx _ => nomatch hx
theorem cSb (rs2 rs1 : Reg) (uimm : Word) : Statement (.cSb rs2 rs1 uimm) :=
  fun _ _ hx _ => nomatch hx
theorem cSh (rs2 rs1 : Reg) (uimm : Word) : Statement (.cSh rs2 rs1 uimm) :=
  fun _ _ hx _ => nomatch hx
theorem cLbusp (rd : Reg) (uimm : Word) : Statement (.cLbusp rd uimm) :=
  fun _ _ hx _ => nomatch hx
theorem cLhusp (rd : Reg) (uimm : Word) : Statement (.cLhusp rd uimm) :=
  fun _ _ hx _ => nomatch hx
theorem cSbsp (rs2 : Reg) (uimm : Word) : Statement (.cSbsp rs2 uimm) :=
  fun _ _ hx _ => nomatch hx
theorem cShsp (rs2 : Reg) (uimm : Word) : Statement (.cShsp rs2 uimm) :=
  fun _ _ hx _ => nomatch hx

end Sys2Proof.Laws.LengthBits
end

