-- ==== Sys2Proof/Laws/Words.lean ====
section
/-! SUPPORT. From the bits of a word to the decoded instruction and its effect: the immediates as slices of the word, the
bytes of a value, and the two steps by which a statement about every word of an encoding is proved. -/

namespace Sys2Proof.Machine

open Sys2Proof

/-- A word of a row decodes to the row's instruction, which writes one register. -/
theorem computes_of_row {s : State} {w pattern mask : Word} {i : Instr} {rd : Reg} {v : Word}
    (hd : w &&& mask = pattern → decode32 w = some i) (hk : 0xFFFFFFFF#32 &&& mask ≠ pattern)
    (hm : i.onMember s.cfg = true) (he : exec i s = s.writeBack rd v 4#32) : Computes s w pattern mask i rd v := by
  intro h
  refine ⟨decode_full (by rintro rfl; exact hk h) (hd h) hm, ?_⟩
  show ∃ t, exec i s = .next t ∧ _
  rw [he]
  exact s.writeBack_effect rd v 4#32

/-- A word of a row decodes to the row's instruction. -/
theorem encodes_of_row {s : State} {w pattern mask : Word} {i : Instr} {holds : Instr → Prop}
    (hd : w &&& mask = pattern → decode32 w = some i) (hk : 0xFFFFFFFF#32 &&& mask ≠ pattern)
    (hm : i.onMember s.cfg = true) (he : holds i) : Encodes s w pattern mask i holds :=
  fun h => ⟨decode_full (by rintro rfl; exact hk h) (hd h) hm, he⟩

theorem immI_bits (w : Word) : immI (funct7Of w) (rs2Of w) = bitsI w := by
  ext i h
  interval_cases i <;> simp [immI, funct7Of, rs2Of, fieldAt, bitsI]

theorem immU_bits (w : Word) : immU (funct7Of w) (rs2Of w) (rs1Of w) (funct3Of w) = w.extractLsb' 12 20 := by
  ext i h
  interval_cases i <;> simp [immU, funct7Of, rs2Of, rs1Of, funct3Of, fieldAt]

theorem immB_bits (w : Word) : immB (funct7Of w) (rdOf w) = bitsB w := by
  apply BitVec.eq_of_getLsbD_eq
  intro i h
  unfold bitsB
  simp only [BitVec.getLsbD_setWidth, BitVec.getLsbD_append]
  interval_cases i <;> simp [immB, funct7Of, rdOf, fieldAt]

theorem immJ_bits (w : Word) : immJ (funct7Of w) (rs2Of w) (rs1Of w) (funct3Of w) = bitsJ w := by
  apply BitVec.eq_of_getLsbD_eq
  intro i h
  unfold bitsJ
  simp only [BitVec.getLsbD_setWidth, BitVec.getLsbD_append]
  interval_cases i <;> simp [immJ, funct7Of, rs2Of, rs1Of, funct3Of, fieldAt]

theorem immS_bits (w : Word) : immI (funct7Of w) (rdOf w) = bitsS w := by
  apply BitVec.eq_of_getLsbD_eq
  intro i h
  unfold bitsS
  simp only [BitVec.getLsbD_setWidth, BitVec.getLsbD_append]
  interval_cases i <;> simp [immI, funct7Of, rdOf, fieldAt]

/-- The upper immediate of a word is the word with its low 12 bits cleared. -/
theorem upperImm_bits (w : Word) : upperImm (w.extractLsb' 12 20) = w &&& 0xFFFFF000#32 := by
  apply BitVec.eq_of_getLsbD_eq
  intro i h
  interval_cases i <;> simp [upperImm, fieldAt]

/-- Four bytes as a value. -/
theorem assemble_word (b0 b1 b2 b3 : Byte) : assemble [b0, b1, b2, b3] = (b3 ++ b2 ++ b1 ++ b0).setWidth 32 := by
  apply BitVec.eq_of_getLsbD_eq
  intro i h
  simp only [assemble, BitVec.getLsbD_setWidth, BitVec.getLsbD_append]
  interval_cases i <;> simp

/-- Two bytes as a value. -/
theorem assemble_half (b0 b1 : Byte) : assemble [b0, b1] = (b1 ++ b0).setWidth 32 := by
  apply BitVec.eq_of_getLsbD_eq
  intro i h
  simp only [assemble, BitVec.getLsbD_setWidth, BitVec.getLsbD_append]
  interval_cases i <;> simp

/-- The four bytes of a word are the word. -/
theorem assemble_bytes (v : Word) : assemble (Width.word.bytes v) = v := by
  apply BitVec.eq_of_getLsbD_eq
  intro i h
  simp only [Width.bytes, assemble]
  interval_cases i <;> simp

/-- A register of a 3-bit field: 8 plus the field. -/
theorem creg_eq (r : CReg) : creg r = shortReg r := by
  revert r
  decide

end Sys2Proof.Machine
end

