-- ==== Sys2Proof/Laws/TrapEntry.lean ====
section
/-! SUPPORT. A trap entry that can complete does, with the effect of 60_exceptions.md R520 to R524. -/

namespace Sys2Proof.Machine

/-- With no device write outstanding, draining changes nothing. -/
theorem State.drainAll_idle {s : State} (h : s.deviceQueue = []) : s.drainAll = s := by
  cases s
  cases h
  rfl

/-- Pending on entry changes the pending bits and the event latch only. -/
theorem State.pendOnEntry_only (s : State) (n : IrqNum) :
    s.pendOnEntry n =
      { s with
        pfic := { s.pfic with pend := (s.pendOnEntry n).pfic.pend }
        eventPending := (s.pendOnEntry n).eventPending } := by
  unfold State.pendOnEntry State.assertSources
  split
  · split <;> rfl
  · rfl

/-- On V3A no source asserts a level. -/
theorem State.assertSources_v3a {s : State} (h : s.isV3A = true) : s.assertSources = s := if_pos h

/-- On V3B/C the asserting sources are pended. -/
theorem State.assertSources_v3bc {s : State} (h : ¬s.isV3A = true) :
    s.assertSources =
      s.setPending
        ((if s.stk.stie && s.stk.cntif then irqBit 12#8 else 0#256) ||| (if s.stk.swie then irqBit 14#8 else 0#256)) :=
  if_neg h

/-- Pending on entry does not look at the trap CSRs, the mode, the active traps or the frames. -/
theorem State.pendOnEntry_frame (s : State) (n : IrqNum) (c : Csrs) (p : Priv) (l : List NestEntry)
    (f : Vector (Vector Word 16) 2) :
    ({ s with csr := c, priv := p, nest := l, hpe := f } : State).pendOnEntry n =
      { s.pendOnEntry n with csr := c, priv := p, nest := l, hpe := f } := by
  unfold State.pendOnEntry
  by_cases hc : s.cfg.pendClearOnEntry = true
  · rw [if_pos hc, if_pos hc]
    by_cases hv : s.isV3A = true
    · refine (State.assertSources_v3a (by exact hv)).trans ?_
      rw [State.assertSources_v3a (s := s.clearPending (irqBit n)) hv]; rfl
    · refine (State.assertSources_v3bc (by exact hv)).trans ?_
      rw [State.assertSources_v3bc (s := s.clearPending (irqBit n)) hv]; rfl
  · rw [if_neg hc, if_neg hc]

/-- The whole state before the target is known. -/
theorem State.enterTrap_eq (s : State) (t : TrapReq) (hl : s.level < 2) :
    s.enterTrap t =
      { s with
        csr := (s.enterTrap t).csr
        priv := .machine
        nest := ⟨t.actidx, s.hpeEnabled, s.trapCsrs⟩ :: s.nest
        hpe := if s.hpeEnabled then s.hpe.setIfInBounds s.level s.hpeFrame else s.hpe
        pfic := (if t.interrupt then s.pendOnEntry t.vec else s).pfic
        eventPending := (if t.interrupt then s.pendOnEntry t.vec else s).eventPending
        reservation := none
        pmpBefore := none } := by
  have hlv : decide (s.level + 1 ≤ 2) = true := by simpa using hl
  have hp : (if s.hpeEnabled && decide (s.level + 1 ≤ 2) then s.hpePush (s.level + 1) else s) =
      { s with hpe := if s.hpeEnabled then s.hpe.setIfInBounds s.level s.hpeFrame else s.hpe } := by
    rw [hlv, Bool.and_true]
    split
    · unfold State.hpePush
      rw [dif_pos (by omega)]
      simp only [Nat.add_sub_cancel, State.mk.injEq, and_self, true_and, and_true]
      exact Vector.ext fun i hi => by simp [Vector.getElem_set, Vector.getElem_setIfInBounds]
    · rfl
  unfold State.enterTrap
  dsimp only
  rw [hp]
  generalize hf : (if s.hpeEnabled then s.hpe.setIfInBounds s.level s.hpeFrame else s.hpe) = f
  have hc : ∀ u : State, u.csr = s.csr → u.priv = s.priv → u.lastLevel = s.lastLevel →
      u.enterCsrs t (s.level + 1) = { u with csr := (s.enterCsrs t (s.level + 1)).csr, priv := .machine } := by
    intro u h1 h2 h3
    unfold State.enterCsrs
    rw [h1, h2, h3]
  rw [hc { s with hpe := f } rfl rfl rfl, hlv, Bool.and_true]
  generalize hcs : (s.enterCsrs t (s.level + 1)).csr = c
  by_cases hi : t.interrupt = true
  · simp only [hi, if_true]
    have hpe := s.pendOnEntry_frame t.vec c .machine (⟨t.actidx, s.hpeEnabled, s.trapCsrs⟩ :: s.nest) f
    have ho := s.pendOnEntry_only t.vec
    generalize hx : s.pendOnEntry t.vec = x at *
    rw [hpe, ho]
    rfl
  · simp only [hi, Bool.false_eq_true, if_false]
    rfl

/-- The target the table gives, read in machine mode. -/
theorem State.tableTarget_eq {s u : State} {vec : IrqNum} {target : Word} (h : TargetIs s vec target) (hp : u.priv = .machine)
    (hm : u.csr.mtvec = s.csr.mtvec) (hc : u.cfg = s.cfg) (hq : u.pmp = s.pmp) (hb : u.mem = s.mem) :
    u.tableTarget vec = .ok (target, u) := by
  have ha : s.csr.mtvec.baseAddr = (s.csr.mtvec.base ++ 0#10).setWidth 32 := by
    unfold Mtvec.baseAddr fieldAt
    generalize s.csr.mtvec.base = x
    apply BitVec.eq_of_getLsbD_eq
    intro i hi
    simp only [BitVec.getLsbD_shiftLeft, BitVec.getLsbD_setWidth, BitVec.getLsbD_append]
    by_cases h10 : i < 10
    · simp [h10]
    · simp [h10, hi]; omega
  have he : s.csr.mtvec.entryAddr vec = (s.csr.mtvec.base ++ 0#10).setWidth 32 + 4#32 * vec.setWidth 32 := by
    unfold Mtvec.entryAddr
    rw [ha]
    congr 1
    unfold fieldAt
    rw [BitVec.shiftLeft_eq_mul_twoPow, BitVec.mul_comm]
    rfl
  have hbytes : ∀ l, u.bytesAt l = s.bytesAt l := by
    intro l
    induction l with
    | nil => rfl
    | cons a as ih => simp only [State.bytesAt, State.byteAt, hb, ih]
  have htarget : ∀ l, u.target l = s.target l := by
    intro l
    have h1 : ∀ a, u.targetAt a = s.targetAt a := fun a => by simp only [State.targetAt, State.regionOf, hc]
    cases l with
    | nil => rfl
    | cons a as => simp only [State.target, h1]
  unfold TargetIs at h
  dsimp only at h
  unfold State.tableTarget
  dsimp only
  rw [hm]
  rcases h with ⟨h0, h1, rfl⟩ | ⟨h0, h1, rfl⟩ | ⟨h0, h1, h2, h3, h4, h5⟩
  · simp only [h0, h1, Bool.not_false, if_true, Bool.false_eq_true, if_false, ha]
  · simp only [h0, h1, Bool.not_false, Bool.not_true, if_true, Bool.false_eq_true, if_false, he]
  · have hok : u.pmpOk .load (Width.word.addrs (s.csr.mtvec.entryAddr vec)) = true := by
      unfold State.pmpOk
      rw [hp, hc, hq, he]
      rcases h4 with h4 | h4
      · rw [show s.cfg.variant.isV3A = true from h4]; rfl
      · rw [show s.pmp.allows .machine .load (Width.word.addrs _) = true from h4, Bool.or_true]
    have hl : u.loadAligned (s.csr.mtvec.entryAddr vec) .word = .ok (target, u) := by
      have hb' : u.bytesAt (Width.word.addrs (s.csr.mtvec.entryAddr vec)) = .ok (Width.word.bytes target) := by
        rw [hbytes, he]; exact h5
      have ht' : u.target (Width.word.addrs (s.csr.mtvec.entryAddr vec)) = .ram ∨
          u.target (Width.word.addrs (s.csr.mtvec.entryAddr vec)) = .rom := by
        rw [htarget, he]; exact h3
      unfold State.loadAligned
      simp only [hok, Bool.not_true, Bool.false_eq_true, if_false, hb', assemble_bytes]
      rcases ht' with ht' | ht' <;> simp only [ht']
    simp only [h0, h1, Bool.not_true, Bool.false_eq_true, if_false, hl, h2]

/-- The channels that match a number depend on the channel registers and the member only. -/
theorem State.vtfMatches_congr {s u : State} (hc : u.cfg = s.cfg) (ha : u.pfic.vtfAddr = s.pfic.vtfAddr)
    (hi : u.pfic.vtfId = s.pfic.vtfId) (n : IrqNum) : u.vtfMatches n = s.vtfMatches n := by
  simp only [State.vtfMatches, State.vtfOn, State.vtfNumber, State.isV3A, hc, ha, hi]
  rfl

/-- A trap entry that is ready completes, with its whole effect (60 R520 to R524). -/
theorem State.trapEntry_taken {s : State} {t : TrapReq} {target : Word} (h : TrapReady s t.vec) (ht : TargetIs s t.vec target) :
    ∃ u, s.trapEntry t = .next u ∧ TrapTaken s u t.interrupt t.code t.actidx t.info t.epc target ∧
      u.pfic = (if t.interrupt then s.pendOnEntry t.vec else s).pfic := by
  have he := s.enterTrap_eq t h.room
  have hcsr := s.enterTrap_csr t
  have hpend := s.pendOnEntry_only t.vec
  have hent : ∀ e, s.enterTrap t = e → e.trapTarget t = .ok (target, e) → s.trapEntry t = .next (e.setPc target) := by
    intro e h1 h2
    unfold State.trapEntry
    have ho : s.drainAll.overflow (s.level + 1) = .ok s := by
      rw [State.drainAll_idle h.drained]
      unfold State.overflow
      rw [if_pos (by have := h.room; omega)]
    rw [ho]
    dsimp only
    rw [h1, h2]
  generalize hx : (if t.interrupt = true then s.pendOnEntry t.vec else s) = x at *
  have hxp : x.pfic = { s.pfic with pend := x.pfic.pend } := by
    rw [← hx]
    split
    · rw [hpend]
    · rfl
  generalize hE : s.enterTrap t = e at *
  have htab : e.trapTarget t = .ok (target, e) := by
    unfold State.trapTarget
    rw [State.vtfMatches_congr (s := s) (by rw [he]) (by rw [he, hxp]) (by rw [he, hxp]), h.noVtf]
    exact State.tableTarget_eq ht (by rw [he]) (by rw [hcsr]) (by rw [he]) (by rw [he]) (by rw [he])
  refine ⟨e.setPc target, hent e rfl htab, ⟨?_, ?_, ?_, ?_, ?_, ?_, ?_, ?_, ?_, ?_, ?_, ?_, ?_, ?_, ?_⟩, ?_⟩
  · show e.csr.mcause = _
    rw [hcsr]
    show t.cause = _
    unfold TrapReq.cause flagAt
    cases t.interrupt <;> rfl
  · show e.csr.mepc = _; rw [hcsr]
  · show e.csr.mtval = _; rw [hcsr]
  · show e.csr.mstatus.mpie = _; rw [hcsr]
  · show e.csr.mstatus.mpp = _; rw [hcsr]
  · show e.csr.mstatus.mie = _; rw [hcsr]
  · show e.priv = _; rw [he]
  · show e.nest = _; rw [he]
  · show e.hpe = _; rw [he]
  · rfl
  · intro j; show e.reg j = _; rw [he]; rfl
  · intro a; show e.byteAt a = _; rw [he]; rfl
  · show e.reservation = _; rw [he]
  · intro hk
    show e.pfic = _ ∧ e.eventPending = _
    rw [hk] at hx
    rw [he, ← hx]
    exact ⟨rfl, rfl⟩
  · have hcs : e.csr = { s.csr with mstatus := e.csr.mstatus, mepc := e.csr.mepc, mcause := e.csr.mcause, mtval := e.csr.mtval } := by
      rw [hcsr]
    generalize e.csr = c at he hcs
    subst he
    simp only [State.setPc, State.mk.injEq, true_and, and_true]
    exact ⟨hcs, hxp⟩
  · show e.pfic = _
    rw [he]

end Sys2Proof.Machine
end

