-- ==== Sys2Proof/Tests/Slice0.lean ====
section
/-! SUPPORT. The model's own tests: ill-formed terms refused, words of the spec's examples decoded, one step of each
instruction against the vectors of 95_test_vectors.md (a test T<n> is its vector T<n>), and for every obligation with
hypotheses a state and operands that meet them, clause by clause. -/

namespace Sys2Proof.Tests

open Sys2Proof Sys2Proof.Machine

/-! ## Small states -/

/-- The V3A and the V3B member with the default parameters. -/
def configA : Config := { Config.default with variant := .v3a }
def configB : Config := { Config.default with variant := .v3b }

/-- The reset state with some registers set. -/
def start (c : Config) (pc : Word) (regs : List (Reg × Word)) : State :=
  regs.foldl (fun s r => s.setReg r.1 r.2) { State.reset with cfg := c, pc := pc }

/-- Bytes in memory as an image holds them: fetch sees them. -/
def State.loaded (s : State) (cells : List (Word × Byte)) : State :=
  { s with mem := cells.foldl (fun m c => Memory.set m c.1.toNat c.2) s.mem }

/-- Words in memory, little-endian. -/
def State.words (s : State) (ws : List (Word × Word)) : State :=
  State.loaded s (ws.flatMap (fun w => (Width.word.addrs w.1).zip (Word.bytes w.2)))

/-- CSRs set by the write rule. -/
def State.csrs (s : State) (cs : List (CsrNum × Word)) : State :=
  cs.foldl (fun s c => match s.csrWrite c.1 c.2 with | .ok t => t | .error _ => s) s

/-- Registers, memory words and CSRs. -/
def setup (c : Config) (pc : Word) (regs : List (Reg × Word)) (ws : List (Word × Word)) (cs : List (CsrNum × Word)) :
    State :=
  State.csrs (State.words (start c pc regs) ws) cs

/-- The instruction bits stand at `pc`. -/
def State.at (s : State) (f : Fetched) : State :=
  match f with
  | .half p => State.loaded s ((Width.half.addrs s.pc).zip (Width.half.bytes (p.setWidth 32)))
  | .full w => State.words s [(s.pc, w)]

/-- An outcome is a next state of which something holds. -/
def goesTo (o : Out) (p : State → Bool) : Bool :=
  match o with
  | .next t => p t
  | _ => false

/-- The step that fetches and runs these bits ends in a state of which something holds. -/
def steps (s : State) (f : Fetched) (p : State → Bool) : Bool := goesTo (step (State.at s f)) p

/-- A word of memory. -/
def State.holds (s : State) (a v : Word) : Bool :=
  match s.bytesAt (Width.word.addrs a) with
  | .ok bs => bs == Word.bytes v
  | .error _ => false

/-- A next state that the kernel has computed exists. -/
theorem goesTo_next {o : Out} {p : State → Bool} (h : goesTo o p = true) : ∃ t, o = .next t ∧ p t = true := by
  cases o with
  | next t => exact ⟨t, rfl, h⟩
  | fault _ => cases h
  | refused _ => cases h

/-! ## Ill-formed terms -/

theorem test_illformed_odd_offsets :
    (Instr.jal 1#5 1#21).wellFormed = false ∧ (Instr.beq 1#5 2#5 3#13).wellFormed = false ∧
      (Instr.bne 1#5 2#5 3#13).wellFormed = false ∧ (Instr.blt 1#5 2#5 3#13).wellFormed = false ∧
      (Instr.bge 1#5 2#5 3#13).wellFormed = false ∧ (Instr.bltu 1#5 2#5 3#13).wellFormed = false ∧
      (Instr.bgeu 1#5 2#5 3#13).wellFormed = false ∧ (Instr.cJal 5#12).wellFormed = false ∧
      (Instr.cJ 5#12).wellFormed = false ∧ (Instr.cBeqz 1#3 7#9).wellFormed = false ∧
      (Instr.cBnez 1#3 7#9).wellFormed = false := by
  decide

theorem test_illformed_unscaled_offsets :
    (Instr.cAddi4spn 0#3 2#10).wellFormed = false ∧ (Instr.cLw 0#3 1#3 2#7).wellFormed = false ∧
      (Instr.cSw 0#3 1#3 6#7).wellFormed = false ∧ (Instr.cAddi16sp 8#10).wellFormed = false ∧
      (Instr.cLwsp 1#5 2#8).wellFormed = false ∧ (Instr.cSwsp 1#5 1#8).wellFormed = false := by
  decide

theorem test_illformed_reserved_operands :
    (Instr.cAddi4spn 0#3 0#10).wellFormed = false ∧ (Instr.cAddi 0#5 1#6).wellFormed = false ∧
      (Instr.cAddi16sp 0#10).wellFormed = false ∧ (Instr.cLui 2#5 1#6).wellFormed = false ∧
      (Instr.cLui 1#5 0#6).wellFormed = false ∧ (Instr.cLwsp 0#5 4#8).wellFormed = false ∧
      (Instr.cJr 0#5).wellFormed = false ∧ (Instr.cMv 1#5 0#5).wellFormed = false ∧
      (Instr.cJalr 0#5).wellFormed = false ∧ (Instr.cAdd 1#5 0#5).wellFormed = false := by
  decide

/-! ## Decoding: words the spec writes out in its examples -/

/-- The example words of the base_alu rules. -/
theorem test_decode_base_alu :
    decode configA (.full 0x123452B7#32) = .instr (.lui 5#5 0x12345#20) ∧
      decode configA (.full 0x00001297#32) = .instr (.auipc 5#5 0x1#20) ∧
      decode configA (.full 0x00000013#32) = .instr (.addi 0#5 0#5 0#12) ∧
      decode configA (.full 0xFFF00093#32) = .instr (.addi 1#5 0#5 (-1)) ∧
      decode configA (.full 0xFFF32293#32) = .instr (.slti 5#5 6#5 (-1)) ∧
      decode configA (.full 0x00133293#32) = .instr (.sltiu 5#5 6#5 1#12) ∧
      decode configA (.full 0xFFF33293#32) = .instr (.sltiu 5#5 6#5 (-1)) ∧
      decode configA (.full 0xFFF34293#32) = .instr (.xori 5#5 6#5 (-1)) ∧
      decode configA (.full 0x00F36293#32) = .instr (.ori 5#5 6#5 15#12) ∧
      decode configA (.full 0x0FF37293#32) = .instr (.andi 5#5 6#5 255#12) ∧
      decode configA (.full 0x01F31293#32) = .instr (.slli 5#5 6#5 31#5) ∧
      decode configA (.full 0x00135293#32) = .instr (.srli 5#5 6#5 1#5) ∧
      decode configA (.full 0x40435293#32) = .instr (.srai 5#5 6#5 4#5) ∧
      decode configA (.full 0x002081B3#32) = .instr (.add 3#5 1#5 2#5) ∧
      decode configA (.full 0x402081B3#32) = .instr (.sub 3#5 1#5 2#5) ∧
      decode configA (.full 0x002091B3#32) = .instr (.sll 3#5 1#5 2#5) ∧
      decode configA (.full 0x0020A1B3#32) = .instr (.slt 3#5 1#5 2#5) ∧
      decode configA (.full 0x002031B3#32) = .instr (.sltu 3#5 0#5 2#5) ∧
      decode configA (.full 0x0020C1B3#32) = .instr (.xor 3#5 1#5 2#5) ∧
      decode configA (.full 0x0020D1B3#32) = .instr (.srl 3#5 1#5 2#5) ∧
      decode configA (.full 0x4020D1B3#32) = .instr (.sra 3#5 1#5 2#5) ∧
      decode configA (.full 0x0020E1B3#32) = .instr (.or 3#5 1#5 2#5) ∧
      decode configA (.full 0x0020F1B3#32) = .instr (.and 3#5 1#5 2#5) := by
  decide

/-- The example words of the jumps rules. -/
theorem test_decode_jumps :
    decode configA (.full 0x001000EF#32) = .instr (.jal 1#5 2048#21) ∧
      decode configA (.full 0xFFDFF06F#32) = .instr (.jal 0#5 (-4)) ∧
      decode configA (.full 0x004280E7#32) = .instr (.jalr 1#5 5#5 4#12) ∧
      decode configA (.full 0xFE208EE3#32) = .instr (.beq 1#5 2#5 (-4)) ∧
      decode configA (.full 0x00051463#32) = .instr (.bne 10#5 0#5 8#13) ∧
      decode configA (.full 0x0062C863#32) = .instr (.blt 5#5 6#5 16#13) ∧
      decode configA (.full 0xFE62D8E3#32) = .instr (.bge 5#5 6#5 (-16)) ∧
      decode configA (.full 0x7E62EFE3#32) = .instr (.bltu 5#5 6#5 4094#13) ∧
      decode configA (.full 0x8062F063#32) = .instr (.bgeu 5#5 6#5 (-4096)) := by
  decide

/-- The example words of the memory rules. -/
theorem test_decode_memory :
    decode configA (.full 0xFFF10503#32) = .instr (.lb 10#5 2#5 (-1)) ∧
      decode configA (.full 0x00259503#32) = .instr (.lh 10#5 11#5 2#12) ∧
      decode configA (.full 0x00812503#32) = .instr (.lw 10#5 2#5 8#12) ∧
      decode configA (.full 0x0005C503#32) = .instr (.lbu 10#5 11#5 0#12) ∧
      decode configA (.full 0x0065D503#32) = .instr (.lhu 10#5 11#5 6#12) ∧
      decode configA (.full 0x005501A3#32) = .instr (.sb 5#5 10#5 3#12) ∧
      decode configA (.full 0xFE551F23#32) = .instr (.sh 5#5 10#5 (-2)) ∧
      decode configA (.full 0xFE512C23#32) = .instr (.sw 5#5 2#5 (-8)) := by
  decide

/-- The example words of the system rules. -/
theorem test_decode_system :
    decode configA (.full 0x0FF0000F#32) = .instr (.fence 0#4 15#4 15#4 0#5 0#5) ∧
      decode configA (.full 0x0330000F#32) = .instr (.fence 0#4 3#4 3#4 0#5 0#5) ∧
      decode configA (.full 0x00000073#32) = .instr (.ecall) ∧
      decode configA (.full 0x00100073#32) = .instr (.ebreak) ∧
      decode configA (.full 0x340312F3#32) = .instr (.csrrw 5#5 0x340#12 6#5) ∧
      decode configA (.full 0xF1229073#32) = .instr (.csrrw 0#5 0xF12#12 5#5) ∧
      decode configA (.full 0x300022F3#32) = .instr (.csrrs 5#5 0x300#12 0#5) ∧
      decode configA (.full 0x3002B073#32) = .instr (.csrrc 0#5 0x300#12 5#5) ∧
      decode configA (.full 0x80045073#32) = .instr (.csrrwi 0#5 0x800#12 8#5) ∧
      decode configA (.full 0x30046073#32) = .instr (.csrrsi 0#5 0x300#12 8#5) ∧
      decode configA (.full 0x300472F3#32) = .instr (.csrrci 5#5 0x300#12 8#5) ∧
      decode configA (.full 0x30200073#32) = .instr (.mret) ∧
      decode configA (.full 0x10500073#32) = .instr (.wfi) ∧
      decode configA (.full 0x0000100F#32) = .instr (.fenceI 0#12 0#5 0#5) := by
  decide

/-- The example words of the muldiv rules. -/
theorem test_decode_muldiv :
    decode configA (.full 0x022081B3#32) = .instr (.mul 3#5 1#5 2#5) ∧
      decode configA (.full 0x022091B3#32) = .instr (.mulh 3#5 1#5 2#5) ∧
      decode configA (.full 0x0220A1B3#32) = .instr (.mulhsu 3#5 1#5 2#5) ∧
      decode configA (.full 0x0220B1B3#32) = .instr (.mulhu 3#5 1#5 2#5) ∧
      decode configA (.full 0x0220C1B3#32) = .instr (.div 3#5 1#5 2#5) ∧
      decode configA (.full 0x0220D1B3#32) = .instr (.divu 3#5 1#5 2#5) ∧
      decode configA (.full 0x0220E1B3#32) = .instr (.rem 3#5 1#5 2#5) ∧
      decode configA (.full 0x0220F1B3#32) = .instr (.remu 3#5 1#5 2#5) := by
  decide

/-- The example words of the atomics rules. -/
theorem test_decode_atomics :
    decode configA (.full 0x1005A52F#32) = .instr (.lrW 10#5 11#5 0#1 0#1) ∧
      decode configA (.full 0x18C5A52F#32) = .instr (.scW 10#5 12#5 11#5 0#1 0#1) ∧
      decode configA (.full 0x08C5A52F#32) = .instr (.amoswapW 10#5 12#5 11#5 0#1 0#1) ∧
      decode configA (.full 0x00C5A52F#32) = .instr (.amoaddW 10#5 12#5 11#5 0#1 0#1) ∧
      decode configA (.full 0x20C5A52F#32) = .instr (.amoxorW 10#5 12#5 11#5 0#1 0#1) ∧
      decode configA (.full 0x60C5A52F#32) = .instr (.amoandW 10#5 12#5 11#5 0#1 0#1) ∧
      decode configA (.full 0x40C5A52F#32) = .instr (.amoorW 10#5 12#5 11#5 0#1 0#1) ∧
      decode configA (.full 0x80C5A52F#32) = .instr (.amominW 10#5 12#5 11#5 0#1 0#1) ∧
      decode configA (.full 0xA0C5A52F#32) = .instr (.amomaxW 10#5 12#5 11#5 0#1 0#1) ∧
      decode configA (.full 0xC0C5A52F#32) = .instr (.amominuW 10#5 12#5 11#5 0#1 0#1) ∧
      decode configA (.full 0xE0C5A52F#32) = .instr (.amomaxuW 10#5 12#5 11#5 0#1 0#1) := by
  decide

/-- The example words of the compressed rules. -/
theorem test_decode_compressed :
    decode configA (.half 0x0800#16) = .instr (.cAddi4spn 0#3 16#10) ∧
      decode configA (.half 0x1FFC#16) = .instr (.cAddi4spn 7#3 1020#10) ∧
      decode configA (.half 0x40C0#16) = .instr (.cLw 0#3 1#3 4#7) ∧
      decode configA (.half 0x5C7C#16) = .instr (.cLw 7#3 0#3 124#7) ∧
      decode configA (.half 0xC0C0#16) = .instr (.cSw 0#3 1#3 4#7) ∧
      decode configA (.half 0xC3B8#16) = .instr (.cSw 6#3 7#3 64#7) ∧
      decode configA (.half 0x0001#16) = .instr (.cNop 0#6) ∧
      decode configA (.half 0x157D#16) = .instr (.cAddi 10#5 (-1)) ∧
      decode configA (.half 0x017D#16) = .instr (.cAddi 2#5 31#6) ∧
      decode configA (.half 0x3FFD#16) = .instr (.cJal (-2)) ∧
      decode configA (.half 0x2FFD#16) = .instr (.cJal 2046#12) ∧
      decode configA (.half 0x5501#16) = .instr (.cLi 10#5 (-32)) ∧
      decode configA (.half 0x42C5#16) = .instr (.cLi 5#5 17#6) ∧
      decode configA (.half 0x7139#16) = .instr (.cAddi16sp (-64)) ∧
      decode configA (.half 0x617D#16) = .instr (.cAddi16sp 496#10) ∧
      decode configA (.half 0x6285#16) = .instr (.cLui 5#5 1#6) ∧
      decode configA (.half 0x8005#16) = .instr (.cSrli 0#3 1#5) ∧
      decode configA (.half 0x83FD#16) = .instr (.cSrli 7#3 31#5) ∧
      decode configA (.half 0x8491#16) = .instr (.cSrai 1#3 4#5) ∧
      decode configA (.half 0x987D#16) = .instr (.cAndi 0#3 (-1)) ∧
      decode configA (.half 0x893D#16) = .instr (.cAndi 2#3 15#6) ∧
      decode configA (.half 0x8C05#16) = .instr (.cSub 0#3 1#3) ∧
      decode configA (.half 0x8D2D#16) = .instr (.cXor 2#3 3#3) ∧
      decode configA (.half 0x8E55#16) = .instr (.cOr 4#3 5#3) ∧
      decode configA (.half 0x8F7D#16) = .instr (.cAnd 6#3 7#3) ∧
      decode configA (.half 0xBFFD#16) = .instr (.cJ (-2)) ∧
      decode configA (.half 0xA001#16) = .instr (.cJ 0#12) ∧
      decode configA (.half 0xD001#16) = .instr (.cBeqz 0#3 (-256)) ∧
      decode configA (.half 0xC119#16) = .instr (.cBeqz 2#3 6#9) ∧
      decode configA (.half 0xECFD#16) = .instr (.cBnez 1#3 254#9) ∧
      decode configA (.half 0xFFF5#16) = .instr (.cBnez 7#3 (-4)) ∧
      decode configA (.half 0x057E#16) = .instr (.cSlli 10#5 31#5) ∧
      decode configA (.half 0x0086#16) = .instr (.cSlli 1#5 1#5) ∧
      decode configA (.half 0x40B2#16) = .instr (.cLwsp 1#5 12#8) ∧
      decode configA (.half 0x557E#16) = .instr (.cLwsp 10#5 252#8) ∧
      decode configA (.half 0x8082#16) = .instr (.cJr 1#5) ∧
      decode configA (.half 0x852E#16) = .instr (.cMv 10#5 11#5) ∧
      decode configA (.half 0x9002#16) = .instr (.cEbreak) ∧
      decode configA (.half 0x9282#16) = .instr (.cJalr 5#5) ∧
      decode configA (.half 0x952E#16) = .instr (.cAdd 10#5 11#5) ∧
      decode configA (.half 0xC606#16) = .instr (.cSwsp 1#5 12#8) ∧
      decode configA (.half 0xDFFE#16) = .instr (.cSwsp 31#5 252#8) := by
  decide

/-- The example words of the bitmanip rules. -/
theorem test_decode_bitmanip :
    decode configB (.full 0x207322B3#32) = .instr (.sh1add 5#5 6#5 7#5) ∧
      decode configB (.full 0x207342B3#32) = .instr (.sh2add 5#5 6#5 7#5) ∧
      decode configB (.full 0x207362B3#32) = .instr (.sh3add 5#5 6#5 7#5) ∧
      decode configB (.full 0x407372B3#32) = .instr (.andn 5#5 6#5 7#5) ∧
      decode configB (.full 0x407362B3#32) = .instr (.orn 5#5 6#5 7#5) ∧
      decode configB (.full 0x407342B3#32) = .instr (.xnor 5#5 6#5 7#5) ∧
      decode configB (.full 0x60031293#32) = .instr (.clz 5#5 6#5) ∧
      decode configB (.full 0x60131293#32) = .instr (.ctz 5#5 6#5) ∧
      decode configB (.full 0x60231293#32) = .instr (.cpop 5#5 6#5) ∧
      decode configB (.full 0x0A7362B3#32) = .instr (.max 5#5 6#5 7#5) ∧
      decode configB (.full 0x0A7372B3#32) = .instr (.maxu 5#5 6#5 7#5) ∧
      decode configB (.full 0x0A7342B3#32) = .instr (.min 5#5 6#5 7#5) ∧
      decode configB (.full 0x0A7352B3#32) = .instr (.minu 5#5 6#5 7#5) ∧
      decode configB (.full 0x60431293#32) = .instr (.sextB 5#5 6#5) ∧
      decode configB (.full 0x60531293#32) = .instr (.sextH 5#5 6#5) ∧
      decode configB (.full 0x080342B3#32) = .instr (.zextH 5#5 6#5) ∧
      decode configB (.full 0x607312B3#32) = .instr (.rol 5#5 6#5 7#5) ∧
      decode configB (.full 0x607352B3#32) = .instr (.ror 5#5 6#5 7#5) ∧
      decode configB (.full 0x60835293#32) = .instr (.rori 5#5 6#5 8#5) ∧
      decode configB (.full 0x28735293#32) = .instr (.orcB 5#5 6#5) ∧
      decode configB (.full 0x69835293#32) = .instr (.rev8 5#5 6#5) ∧
      decode configB (.full 0x487312B3#32) = .instr (.bclr 5#5 6#5 7#5) ∧
      decode configB (.full 0x49F31293#32) = .instr (.bclri 5#5 6#5 31#5) ∧
      decode configB (.full 0x487352B3#32) = .instr (.bext 5#5 6#5 7#5) ∧
      decode configB (.full 0x49F35293#32) = .instr (.bexti 5#5 6#5 31#5) ∧
      decode configB (.full 0x687312B3#32) = .instr (.binv 5#5 6#5 7#5) ∧
      decode configB (.full 0x68031293#32) = .instr (.binvi 5#5 6#5 0#5) ∧
      decode configB (.full 0x287312B3#32) = .instr (.bset 5#5 6#5 7#5) ∧
      decode configB (.full 0x28531293#32) = .instr (.bseti 5#5 6#5 5#5) := by
  decide

/-- An `XW_DECODE` of this test's own making: no source gives one (46 R440). Function codes in bits 15 to 13 and 1 to 0,
the data register in bits 4 to 2 or 6 to 2, the base in bits 9 to 7, offset bits 12 to 10. -/
def xwRows : List XwRow :=
  [⟨.lbu, 0x2000#16, 0xE003#16, ⟨2, true⟩, ⟨7, true⟩, [(10, 0), (11, 1), (12, 2)]⟩,
    ⟨.lhu, 0x2002#16, 0xE003#16, ⟨2, true⟩, ⟨7, true⟩, [(10, 1), (11, 2), (12, 3)]⟩,
    ⟨.sb, 0xA000#16, 0xE003#16, ⟨2, true⟩, ⟨7, true⟩, [(10, 0), (11, 1), (12, 2)]⟩,
    ⟨.sh, 0xA002#16, 0xE003#16, ⟨2, true⟩, ⟨7, true⟩, [(10, 1), (11, 2), (12, 3)]⟩,
    ⟨.lbusp, 0x6000#16, 0xF003#16, ⟨2, false⟩, ⟨0, true⟩, [(7, 0), (8, 1)]⟩,
    ⟨.lhusp, 0x7000#16, 0xF003#16, ⟨2, false⟩, ⟨0, true⟩, [(7, 1), (8, 2)]⟩,
    ⟨.sbsp, 0xE000#16, 0xF003#16, ⟨2, false⟩, ⟨0, true⟩, [(7, 0), (8, 1)]⟩,
    ⟨.shsp, 0xF000#16, 0xF003#16, ⟨2, false⟩, ⟨0, true⟩, [(7, 1), (8, 2)]⟩]

/-- V3B with those rows. -/
def configX : Config := { configB with xw := xwRows }

/-- The eight XW rows: data x9, base x10, or data x17. -/
theorem test_decode_xw :
    decode configX (.half 0x3D04#16) = .instr (.cLbu 9#5 10#5 7#32) ∧
      decode configX (.half 0x3106#16) = .instr (.cLhu 9#5 10#5 8#32) ∧
      decode configX (.half 0xA504#16) = .instr (.cSb 9#5 10#5 1#32) ∧
      decode configX (.half 0xA906#16) = .instr (.cSh 9#5 10#5 4#32) ∧
      decode configX (.half 0x61C4#16) = .instr (.cLbusp 17#5 3#32) ∧
      decode configX (.half 0x7144#16) = .instr (.cLhusp 17#5 4#32) ∧
      decode configX (.half 0xE0C4#16) = .instr (.cSbsp 17#5 1#32) ∧
      decode configX (.half 0xF1C4#16) = .instr (.cShsp 17#5 6#32) := by
  decide

/-- Bits of no row: illegal on V3A, unknown on V3B, the two fixed words illegal everywhere (30 R157). -/
theorem test_decode_no_row :
    decode configA (.full 0x60031293#32) = .illegal ∧ decode configA (.full 0x10200073#32) = .illegal ∧
      decode configB (.full 0x007322AF#32) = .unknown ∧ decode configB (.full 0x62035293#32) = .unknown ∧
      decode configB (.full 0x0A7312B3#32) = .unknown ∧ decode configB (.half 0x0000#16) = .illegal ∧
      decode configB (.full 0xFFFFFFFF#32) = .illegal ∧ decode configB (.half 0x2000#16) = .unknown := by
  decide

/-! ## One step: the vectors of 95_test_vectors.md -/

theorem test_lui_T1 : steps (setup configA 0x20000000#32 [] [] []) (.full 0xFFFFF2B7#32)
    (fun t => t.reg 5#5 == 0xFFFFF000#32 && t.pc == 0x20000004#32) = true := by decide

theorem test_auipc_T2 : steps (setup configA 0x20000000#32 [] [] []) (.full 0xE0000297#32)
    (fun t => t.reg 5#5 == 0x0#32 && t.pc == 0x20000004#32) = true := by decide

theorem test_auipc_T3 : steps (setup configA 0x20000102#32 [] [] []) (.full 0x00000297#32)
    (fun t => t.reg 5#5 == 0x20000102#32 && t.pc == 0x20000106#32) = true := by decide

theorem test_jal_T4 : steps (setup configA 0x20000010#32 [] [] []) (.full 0xFFDFF0EF#32)
    (fun t => t.reg 1#5 == 0x20000014#32 && t.pc == 0x2000000C#32) = true := by decide

theorem test_jal_T6 : steps (setup configA 0x20100000#32 [] [] []) (.full 0x800000EF#32)
    (fun t => t.reg 1#5 == 0x20100004#32 && t.pc == 0x20000000#32) = true := by decide

theorem test_jalr_T7 : steps (setup configA 0x20000000#32 [(5#5, 0x20000100#32)] [] []) (.full 0x003280E7#32)
    (fun t => t.reg 1#5 == 0x20000004#32 && t.pc == 0x20000102#32) = true := by decide

theorem test_jalr_T9 : steps (setup configA 0x20000000#32 [(5#5, 0x20000900#32)] [] []) (.full 0x80028067#32)
    (fun t => t.pc == 0x20000100#32) = true := by decide

theorem test_beq_T10 : steps (setup configA 0x20000000#32 [(5#5, 0x7#32), (6#5, 0x7#32)] [] []) (.full 0x7E628FE3#32)
    (fun t => t.pc == 0x20000FFE#32) = true := by decide

theorem test_bne_T11 : steps (setup configA 0x20000000#32 [(5#5, 0x7#32), (6#5, 0x7#32)] [] []) (.full 0x80629063#32)
    (fun t => t.pc == 0x20000004#32) = true := by decide

theorem test_blt_T12 :
    steps
      (setup configA 0x20000000#32 [(5#5, 0xFFFFFFFF#32), (6#5, 0x1#32)] [] []) (.full 0x0062C463#32)
      (fun t => t.pc == 0x20000008#32) = true := by
  decide

theorem test_bge_T14 :
    steps
      (setup configA 0x20000000#32 [(5#5, 0x80000000#32), (6#5, 0x80000000#32)] [] []) (.full 0xFE62DCE3#32)
      (fun t => t.pc == 0x1FFFFFF8#32) = true := by
  decide

theorem test_bltu_T13 :
    steps
      (setup configA 0x20000000#32 [(5#5, 0xFFFFFFFF#32), (6#5, 0x1#32)] [] []) (.full 0x0062E463#32)
      (fun t => t.pc == 0x20000004#32) = true := by
  decide

theorem test_bgeu_T15 : steps (setup configA 0x20000000#32 [(5#5, 0x0#32)] [] []) (.full 0x0002F463#32)
    (fun t => t.pc == 0x20000008#32) = true := by decide

theorem test_lb_T40 :
    steps
      (setup configA 0x20000000#32 [(6#5, 0x20000100#32)] [(0x20000100#32, 0x81223344#32)] []) (.full 0x00330283#32)
      (fun t => t.reg 5#5 == 0xFFFFFF81#32 && t.pc == 0x20000004#32) = true := by
  decide

theorem test_lh_T42 :
    steps
      (setup configA 0x20000000#32 [(6#5, 0x20000100#32)] [(0x20000100#32, 0x81223344#32)] []) (.full 0x00231283#32)
      (fun t => t.reg 5#5 == 0xFFFF8122#32 && t.pc == 0x20000004#32) = true := by
  decide

theorem test_lw_T39 :
    steps
      (setup configA 0x20000000#32 [(6#5, 0x20000100#32)] [(0x20000100#32, 0x11223344#32)] []) (.full 0x00032283#32)
      (fun t => t.reg 5#5 == 0x11223344#32 && t.pc == 0x20000004#32) = true := by
  decide

theorem test_lw_T50 :
    steps
      (setup ({ configA with misaligned := .trap }) 0x20000000#32 [(6#5, 0x20000100#32)]
        [(0x20000100#32, 0x11223344#32), (0x20000104#32, 0x55667788#32)] [(0x305#12, 0x20000400#32)]) (.full 0x00232283#32)
      (fun t => t.csrRead 0x342#12 == 0x4#32 && t.csrRead 0x341#12 == 0x20000000#32 &&
        t.csrRead 0x343#12 == 0x20000102#32 && t.csrRead 0x300#12 == 0x1800#32 && t.pc == 0x20000400#32) = true := by
  decide

theorem test_lbu_T41 :
    steps
      (setup configA 0x20000000#32 [(6#5, 0x20000100#32)] [(0x20000100#32, 0x81223344#32)] []) (.full 0x00334283#32)
      (fun t => t.reg 5#5 == 0x81#32 && t.pc == 0x20000004#32) = true := by
  decide

theorem test_lhu_T43 :
    steps
      (setup configA 0x20000000#32 [(6#5, 0x20000100#32)] [(0x20000100#32, 0x81223344#32)] []) (.full 0x00235283#32)
      (fun t => t.reg 5#5 == 0x8122#32 && t.pc == 0x20000004#32) = true := by
  decide

theorem test_sb_T48 :
    steps
      (setup configA 0x20000000#32 [(6#5, 0x20000104#32), (7#5, 0xA1B2C3D4#32)] [(0x20000100#32, 0x0#32)] []) (.full 0xFE730FA3#32)
      (fun t => State.holds t 0x20000100#32 0xD4000000#32 && t.pc == 0x20000004#32) = true := by
  decide

theorem test_sh_T47 :
    steps
      (setup configA 0x20000000#32 [(6#5, 0x20000100#32), (7#5, 0xA1B2C3D4#32)] [(0x20000100#32, 0x0#32)] []) (.full 0x00731123#32)
      (fun t => State.holds t 0x20000100#32 0xC3D40000#32 && t.pc == 0x20000004#32) = true := by
  decide

theorem test_sh_T51 :
    steps
      (setup ({ configB with misaligned := .trap }) 0x20000000#32 [(6#5, 0x20000100#32), (7#5, 0x1#32)] []
        [(0x305#12, 0x20000400#32)]) (.full 0x007310A3#32)
      (fun t => t.csrRead 0x342#12 == 0x6#32 && t.csrRead 0x341#12 == 0x20000000#32 &&
        t.csrRead 0x343#12 == 0x20000101#32 && t.csrRead 0x300#12 == 0x1800#32 && t.pc == 0x20000400#32) = true := by
  decide

theorem test_sw_T46 :
    steps
      (setup configA 0x20000000#32 [(6#5, 0x20000100#32), (7#5, 0xA1B2C3D4#32)] [] []) (.full 0x00732023#32)
      (fun t => State.holds t 0x20000100#32 0xA1B2C3D4#32 && t.pc == 0x20000004#32) = true := by
  decide

theorem test_addi_T16 : steps (setup configA 0x20000000#32 [(6#5, 0x0#32)] [] []) (.full 0xFFF30293#32)
    (fun t => t.reg 5#5 == 0xFFFFFFFF#32 && t.pc == 0x20000004#32) = true := by decide

theorem test_addi_T18 : steps (setup configA 0x20000000#32 [(6#5, 0x7FFFFFFF#32)] [] []) (.full 0x7FF30293#32)
    (fun t => t.reg 5#5 == 0x800007FE#32 && t.pc == 0x20000004#32) = true := by decide

theorem test_slti_T19 : steps (setup configA 0x20000000#32 [(6#5, 0x80000000#32)] [] []) (.full 0xFFF32293#32)
    (fun t => t.reg 5#5 == 0x1#32 && t.pc == 0x20000004#32) = true := by decide

theorem test_sltiu_T20 : steps (setup configA 0x20000000#32 [(6#5, 0xFFFFFFFE#32)] [] []) (.full 0xFFF33293#32)
    (fun t => t.reg 5#5 == 0x1#32 && t.pc == 0x20000004#32) = true := by decide

theorem test_sltiu_T21 : steps (setup configA 0x20000000#32 [(6#5, 0x0#32)] [] []) (.full 0x00133293#32)
    (fun t => t.reg 5#5 == 0x1#32 && t.pc == 0x20000004#32) = true := by decide

theorem test_xori_T22 : steps (setup configA 0x20000000#32 [(6#5, 0xF0F0F0F#32)] [] []) (.full 0xFFF34293#32)
    (fun t => t.reg 5#5 == 0xF0F0F0F0#32 && t.pc == 0x20000004#32) = true := by decide

theorem test_ori_T23 : steps (setup configA 0x20000000#32 [(6#5, 0x80000001#32)] [] []) (.full 0x70036293#32)
    (fun t => t.reg 5#5 == 0x80000701#32 && t.pc == 0x20000004#32) = true := by decide

theorem test_andi_T24 : steps (setup configA 0x20000000#32 [(6#5, 0x12345678#32)] [] []) (.full 0xF0037293#32)
    (fun t => t.reg 5#5 == 0x12345600#32 && t.pc == 0x20000004#32) = true := by decide

theorem test_slli_T25 : steps (setup configA 0x20000000#32 [(6#5, 0x3#32)] [] []) (.full 0x01F31293#32)
    (fun t => t.reg 5#5 == 0x80000000#32 && t.pc == 0x20000004#32) = true := by decide

theorem test_srli_T26 : steps (setup configA 0x20000000#32 [(6#5, 0x80000000#32)] [] []) (.full 0x01F35293#32)
    (fun t => t.reg 5#5 == 0x1#32 && t.pc == 0x20000004#32) = true := by decide

theorem test_srai_T27 : steps (setup configA 0x20000000#32 [(6#5, 0x80000000#32)] [] []) (.full 0x41F35293#32)
    (fun t => t.reg 5#5 == 0xFFFFFFFF#32 && t.pc == 0x20000004#32) = true := by decide

theorem test_srai_T28 : steps (setup configA 0x20000000#32 [(6#5, 0x80000000#32)] [] []) (.full 0x40035293#32)
    (fun t => t.reg 5#5 == 0x80000000#32 && t.pc == 0x20000004#32) = true := by decide

theorem test_add_T29 :
    steps
      (setup configA 0x20000000#32 [(6#5, 0xFFFFFFFF#32), (7#5, 0x2#32)] [] []) (.full 0x007302B3#32)
      (fun t => t.reg 5#5 == 0x1#32 && t.pc == 0x20000004#32) = true := by
  decide

theorem test_sub_T30 : steps (setup configA 0x20000000#32 [(6#5, 0x0#32), (7#5, 0x1#32)] [] []) (.full 0x407302B3#32)
    (fun t => t.reg 5#5 == 0xFFFFFFFF#32 && t.pc == 0x20000004#32) = true := by decide

theorem test_sll_T31 : steps (setup configA 0x20000000#32 [(6#5, 0x1#32), (7#5, 0x21#32)] [] []) (.full 0x007312B3#32)
    (fun t => t.reg 5#5 == 0x2#32 && t.pc == 0x20000004#32) = true := by decide

theorem test_slt_T34 :
    steps
      (setup configA 0x20000000#32 [(6#5, 0x80000000#32), (7#5, 0x7FFFFFFF#32)] [] []) (.full 0x007322B3#32)
      (fun t => t.reg 5#5 == 0x1#32 && t.pc == 0x20000004#32) = true := by
  decide

theorem test_sltu_T35 : steps (setup configA 0x20000000#32 [(7#5, 0x5#32)] [] []) (.full 0x007032B3#32)
    (fun t => t.reg 5#5 == 0x1#32 && t.pc == 0x20000004#32) = true := by decide

theorem test_xor_T36 : steps (setup configA 0x20000000#32 [(6#5, 0xDEADBEEF#32)] [] []) (.full 0x006342B3#32)
    (fun t => t.reg 5#5 == 0x0#32 && t.pc == 0x20000004#32) = true := by decide

theorem test_srl_T32 :
    steps
      (setup configA 0x20000000#32 [(6#5, 0x80000000#32), (7#5, 0x20#32)] [] []) (.full 0x007352B3#32)
      (fun t => t.reg 5#5 == 0x80000000#32 && t.pc == 0x20000004#32) = true := by
  decide

theorem test_sra_T33 :
    steps
      (setup configA 0x20000000#32 [(6#5, 0xF0000000#32), (7#5, 0x4#32)] [] []) (.full 0x407352B3#32)
      (fun t => t.reg 5#5 == 0xFF000000#32 && t.pc == 0x20000004#32) = true := by
  decide

theorem test_or_T37 :
    steps
      (setup configA 0x20000000#32 [(6#5, 0xF0F00000#32), (7#5, 0xF0F0#32)] [] []) (.full 0x007362B3#32)
      (fun t => t.reg 5#5 == 0xF0F0F0F0#32 && t.pc == 0x20000004#32) = true := by
  decide

theorem test_and_T38 :
    steps
      (setup configA 0x20000000#32 [(6#5, 0xFF00FF00#32), (7#5, 0xFF00FF0#32)] [] []) (.full 0x007372B3#32)
      (fun t => t.reg 5#5 == 0xF000F00#32 && t.pc == 0x20000004#32) = true := by
  decide

theorem test_fence_T54 : steps (setup configA 0x20000000#32 [] [] []) (.full 0x0FF0000F#32)
    (fun t => t.pc == 0x20000004#32) = true := by decide

theorem test_csrrw_T200 :
    steps
      (setup configA 0x20000000#32 [(6#5, 0xDEADBEEF#32)] [] [(0x340#12, 0x11111111#32)]) (.full 0x340312F3#32)
      (fun t => t.reg 5#5 == 0x11111111#32 && t.csrRead 0x340#12 == 0xDEADBEEF#32 && t.pc == 0x20000004#32) = true := by
  decide

theorem test_csrrw_T215 :
    steps
      (setup configA 0x20000000#32 [] [] [(0x305#12, 0x20000400#32)]) (.full 0xF1301073#32)
      (fun t => t.csrRead 0x342#12 == 0x2#32 && t.csrRead 0x341#12 == 0x20000000#32 &&
        t.csrRead 0x343#12 == 0xF1301073#32 && t.csrRead 0x300#12 == 0x1800#32 && t.pc == 0x20000400#32) = true := by
  decide

theorem test_csrrs_T202 :
    steps
      (setup configA 0x20000000#32 [(6#5, 0xF00F#32)] [] [(0x340#12, 0x11111111#32)]) (.full 0x340322F3#32)
      (fun t => t.reg 5#5 == 0x11111111#32 && t.csrRead 0x340#12 == 0x1111F11F#32 && t.pc == 0x20000004#32) = true := by
  decide

theorem test_csrrs_T219 :
    steps
      (setup configA 0x20000000#32 [] [] [(0x305#12, 0x20000400#32)]) (.full 0x7B0022F3#32)
      (fun t => t.csrRead 0x342#12 == 0x2#32 && t.csrRead 0x341#12 == 0x20000000#32 &&
        t.csrRead 0x343#12 == 0x7B0022F3#32 && t.csrRead 0x300#12 == 0x1800#32 && t.pc == 0x20000400#32) = true := by
  decide

theorem test_csrrc_T203 :
    steps
      (setup configA 0x20000000#32 [(6#5, 0xF00F#32)] [] [(0x340#12, 0x11111111#32)]) (.full 0x340332F3#32)
      (fun t => t.reg 5#5 == 0x11111111#32 && t.csrRead 0x340#12 == 0x11110110#32 && t.pc == 0x20000004#32) = true := by
  decide

theorem test_csrrwi_T205 : steps (setup configA 0x20000000#32 [] [] [(0x340#12, 0x11111111#32)]) (.full 0x340FD2F3#32)
    (fun t => t.reg 5#5 == 0x11111111#32 && t.csrRead 0x340#12 == 0x1F#32 && t.pc == 0x20000004#32) = true := by decide

theorem test_csrrwi_T227 : steps (setup configB 0x20000000#32 [] [] []) (.full 0x8046D2F3#32)
    (fun t => t.reg 5#5 == 0x2#32 && t.csrRead 0x804#12 == 0xD#32 && t.pc == 0x20000004#32) = true := by decide

theorem test_csrrsi_T206 :
    steps
      (setup configA 0x20000000#32 [] [] [(0x340#12, 0x11111111#32)]) (.full 0x340362F3#32)
      (fun t => t.reg 5#5 == 0x11111111#32 && t.csrRead 0x340#12 == 0x11111117#32 && t.pc == 0x20000004#32) = true := by
  decide

theorem test_csrrsi_T228 : steps (setup configB 0x20000000#32 [] [] []) (.full 0x804062F3#32)
    (fun t => t.reg 5#5 == 0x2#32 && t.pc == 0x20000004#32) = true := by decide

theorem test_csrrci_T207 :
    steps
      (setup configA 0x20000000#32 [] [] [(0x340#12, 0x11111111#32)]) (.full 0x3400F2F3#32)
      (fun t => t.reg 5#5 == 0x11111111#32 && t.csrRead 0x340#12 == 0x11111110#32 && t.pc == 0x20000004#32) = true := by
  decide

theorem test_fenceI_T56 : steps (setup configA 0x20000000#32 [] [] []) (.full 0x0000100F#32)
    (fun t => t.pc == 0x20000004#32) = true := by decide

theorem test_fenceI_T234 : steps (setup configA 0x20000000#32 [] [] []) (.full 0x0000100F#32)
    (fun t => t.pc == 0x20000004#32) = true := by decide

theorem test_mul_T60 :
    steps
      (setup configA 0x20000000#32 [(6#5, 0xFFFFFFFF#32), (7#5, 0xFFFFFFFF#32)] [] []) (.full 0x027302B3#32)
      (fun t => t.reg 5#5 == 0x1#32 && t.pc == 0x20000004#32) = true := by
  decide

theorem test_mul_T61 :
    steps
      (setup configA 0x20000000#32 [(6#5, 0x10000#32), (7#5, 0x10000#32)] [] []) (.full 0x027302B3#32)
      (fun t => t.reg 5#5 == 0x0#32 && t.pc == 0x20000004#32) = true := by
  decide

theorem test_mulh_T62 :
    steps
      (setup configA 0x20000000#32 [(6#5, 0xFFFFFFFF#32), (7#5, 0xFFFFFFFF#32)] [] []) (.full 0x027312B3#32)
      (fun t => t.reg 5#5 == 0x0#32 && t.pc == 0x20000004#32) = true := by
  decide

theorem test_mulh_T63 :
    steps
      (setup configA 0x20000000#32 [(6#5, 0x80000000#32), (7#5, 0x80000000#32)] [] []) (.full 0x027312B3#32)
      (fun t => t.reg 5#5 == 0x40000000#32 && t.pc == 0x20000004#32) = true := by
  decide

theorem test_mulhsu_T65 :
    steps
      (setup configA 0x20000000#32 [(6#5, 0xFFFFFFFF#32), (7#5, 0xFFFFFFFF#32)] [] []) (.full 0x027322B3#32)
      (fun t => t.reg 5#5 == 0xFFFFFFFF#32 && t.pc == 0x20000004#32) = true := by
  decide

theorem test_mulhsu_T66 :
    steps
      (setup configA 0x20000000#32 [(6#5, 0x7FFFFFFF#32), (7#5, 0xFFFFFFFF#32)] [] []) (.full 0x027322B3#32)
      (fun t => t.reg 5#5 == 0x7FFFFFFE#32 && t.pc == 0x20000004#32) = true := by
  decide

theorem test_mulhu_T64 :
    steps
      (setup configA 0x20000000#32 [(6#5, 0xFFFFFFFF#32), (7#5, 0xFFFFFFFF#32)] [] []) (.full 0x027332B3#32)
      (fun t => t.reg 5#5 == 0xFFFFFFFE#32 && t.pc == 0x20000004#32) = true := by
  decide

theorem test_div_T67 :
    steps
      (setup configA 0x20000000#32 [(6#5, 0xFFFFFFF9#32), (7#5, 0x2#32)] [] []) (.full 0x027342B3#32)
      (fun t => t.reg 5#5 == 0xFFFFFFFD#32 && t.pc == 0x20000004#32) = true := by
  decide

theorem test_div_T75 :
    steps
      (setup configA 0x20000000#32 [(6#5, 0x80000000#32), (7#5, 0xFFFFFFFF#32)] [] []) (.full 0x027342B3#32)
      (fun t => t.reg 5#5 == 0x80000000#32 && t.pc == 0x20000004#32) = true := by
  decide

theorem test_divu_T72 :
    steps
      (setup configA 0x20000000#32 [(6#5, 0x12345678#32), (7#5, 0x0#32)] [] []) (.full 0x027352B3#32)
      (fun t => t.reg 5#5 == 0xFFFFFFFF#32 && t.pc == 0x20000004#32) = true := by
  decide

theorem test_divu_T77 :
    steps
      (setup configA 0x20000000#32 [(6#5, 0x80000000#32), (7#5, 0xFFFFFFFF#32)] [] []) (.full 0x027352B3#32)
      (fun t => t.reg 5#5 == 0x0#32 && t.pc == 0x20000004#32) = true := by
  decide

theorem test_rem_T68 :
    steps
      (setup configA 0x20000000#32 [(6#5, 0xFFFFFFF9#32), (7#5, 0x2#32)] [] []) (.full 0x027362B3#32)
      (fun t => t.reg 5#5 == 0xFFFFFFFF#32 && t.pc == 0x20000004#32) = true := by
  decide

theorem test_rem_T76 :
    steps
      (setup configA 0x20000000#32 [(6#5, 0x80000000#32), (7#5, 0xFFFFFFFF#32)] [] []) (.full 0x027362B3#32)
      (fun t => t.reg 5#5 == 0x0#32 && t.pc == 0x20000004#32) = true := by
  decide

theorem test_remu_T74 :
    steps
      (setup configA 0x20000000#32 [(6#5, 0x12345678#32), (7#5, 0x0#32)] [] []) (.full 0x027372B3#32)
      (fun t => t.reg 5#5 == 0x12345678#32 && t.pc == 0x20000004#32) = true := by
  decide

theorem test_remu_T78 :
    steps
      (setup configA 0x20000000#32 [(6#5, 0x80000000#32), (7#5, 0xFFFFFFFF#32)] [] []) (.full 0x027372B3#32)
      (fun t => t.reg 5#5 == 0x80000000#32 && t.pc == 0x20000004#32) = true := by
  decide

theorem test_lrW_T79 :
    steps
      (setup configA 0x20000000#32 [(6#5, 0x20000100#32)] [(0x20000100#32, 0xA#32)] []) (.full 0x100322AF#32)
      (fun t => t.reg 5#5 == 0xA#32 && t.pc == 0x20000004#32) = true := by
  decide

theorem test_lrW_T92 :
    steps
      (setup configA 0x20000000#32 [(6#5, 0x20000102#32)] [] [(0x305#12, 0x20000400#32)]) (.full 0x100322AF#32)
      (fun t => t.csrRead 0x342#12 == 0x4#32 && t.csrRead 0x341#12 == 0x20000000#32 &&
        t.csrRead 0x343#12 == 0x20000102#32 && t.csrRead 0x300#12 == 0x1800#32 && t.pc == 0x20000400#32) = true := by
  decide

theorem test_scW_T80 :
    steps
      (setup configA 0x20000000#32 [(6#5, 0x20000100#32), (7#5, 0x55#32)] [(0x20000100#32, 0xA#32)] []) (.full 0x187322AF#32)
      (fun t => t.reg 5#5 == 0x1#32 && t.pc == 0x20000004#32) = true := by
  decide

theorem test_amoswapW_T82 :
    steps
      (setup configA 0x20000000#32 [(6#5, 0x20000100#32), (7#5, 0x55#32)] [(0x20000100#32, 0xA#32)] []) (.full 0x087322AF#32)
      (fun t => t.reg 5#5 == 0xA#32 && State.holds t 0x20000100#32 0x55#32 && t.pc == 0x20000004#32) = true := by
  decide

theorem test_amoaddW_T83 :
    steps
      (setup configA 0x20000000#32 [(6#5, 0x20000100#32), (7#5, 0xFFFFFFFF#32)] [(0x20000100#32, 0xA#32)] []) (.full 0x067322AF#32)
      (fun t => t.reg 5#5 == 0xA#32 && State.holds t 0x20000100#32 0x9#32 && t.pc == 0x20000004#32) = true := by
  decide

theorem test_amoaddW_T93 :
    steps
      (setup configA 0x20000000#32 [(6#5, 0x20000101#32), (7#5, 0x1#32)] [] [(0x305#12, 0x20000400#32)]) (.full 0x007322AF#32)
      (fun t => t.csrRead 0x342#12 == 0x6#32 && t.csrRead 0x341#12 == 0x20000000#32 &&
        t.csrRead 0x343#12 == 0x20000101#32 && t.csrRead 0x300#12 == 0x1800#32 && t.pc == 0x20000400#32) = true := by
  decide

theorem test_amoxorW_T84 :
    steps
      (setup configA 0x20000000#32 [(6#5, 0x20000100#32), (7#5, 0xFF#32)] [(0x20000100#32, 0xA#32)] []) (.full 0x207322AF#32)
      (fun t => t.reg 5#5 == 0xA#32 && State.holds t 0x20000100#32 0xF5#32 && t.pc == 0x20000004#32) = true := by
  decide

theorem test_amoandW_T85 :
    steps
      (setup configA 0x20000000#32 [(6#5, 0x20000100#32), (7#5, 0x3#32)] [(0x20000100#32, 0xA#32)] []) (.full 0x607322AF#32)
      (fun t => t.reg 5#5 == 0xA#32 && State.holds t 0x20000100#32 0x2#32 && t.pc == 0x20000004#32) = true := by
  decide

theorem test_amoorW_T86 :
    steps
      (setup configA 0x20000000#32 [(6#5, 0x20000100#32), (7#5, 0x30#32)] [(0x20000100#32, 0xA#32)] []) (.full 0x4073202F#32)
      (fun t => State.holds t 0x20000100#32 0x3A#32 && t.pc == 0x20000004#32) = true := by
  decide

theorem test_amominW_T87 :
    steps
      (setup configA 0x20000000#32 [(6#5, 0x20000100#32), (7#5, 0x1#32)] [(0x20000100#32, 0xFFFFFFFF#32)] []) (.full 0x807322AF#32)
      (fun t => t.reg 5#5 == 0xFFFFFFFF#32 && t.pc == 0x20000004#32) = true := by
  decide

theorem test_amomaxW_T89 :
    steps
      (setup configA 0x20000000#32 [(6#5, 0x20000100#32), (7#5, 0x1#32)] [(0x20000100#32, 0xFFFFFFFF#32)] []) (.full 0xA07322AF#32)
      (fun t => t.reg 5#5 == 0xFFFFFFFF#32 && State.holds t 0x20000100#32 0x1#32 && t.pc == 0x20000004#32) = true := by
  decide

theorem test_amominuW_T88 :
    steps
      (setup configA 0x20000000#32 [(6#5, 0x20000100#32), (7#5, 0x1#32)] [(0x20000100#32, 0xFFFFFFFF#32)] []) (.full 0xC07322AF#32)
      (fun t => t.reg 5#5 == 0xFFFFFFFF#32 && State.holds t 0x20000100#32 0x1#32 && t.pc == 0x20000004#32) = true := by
  decide

theorem test_amomaxuW_T90 :
    steps
      (setup configA 0x20000000#32 [(6#5, 0x20000100#32), (7#5, 0x1#32)] [(0x20000100#32, 0xFFFFFFFF#32)] []) (.full 0xE07322AF#32)
      (fun t => t.reg 5#5 == 0xFFFFFFFF#32 && t.pc == 0x20000004#32) = true := by
  decide

theorem test_cAddi4spn_T100 : steps (setup configA 0x20000000#32 [(2#5, 0x20001000#32)] [] []) (.half 0x1FE0#16)
    (fun t => t.reg 8#5 == 0x200013FC#32 && t.pc == 0x20000002#32) = true := by decide

theorem test_cAddi4spn_T139 :
    steps
      (setup configA 0x20000000#32 [] [] [(0x305#12, 0x20000400#32)]) (.half 0x0004#16)
      (fun t => t.csrRead 0x342#12 == 0x2#32 && t.csrRead 0x341#12 == 0x20000000#32 &&
        t.csrRead 0x343#12 == 0x4#32 && t.csrRead 0x300#12 == 0x1800#32 && t.pc == 0x20000400#32) = true := by
  decide

theorem test_cLw_T102 :
    steps
      (setup configA 0x20000000#32 [(8#5, 0x20000084#32)] [(0x20000100#32, 0x11223344#32)] []) (.half 0x5C64#16)
      (fun t => t.reg 9#5 == 0x11223344#32 && t.pc == 0x20000002#32) = true := by
  decide

theorem test_cSw_T103 :
    steps
      (setup configA 0x20000000#32 [(8#5, 0x200000FC#32), (9#5, 0xA1B2C3D4#32)] [] []) (.half 0xC044#16)
      (fun t => State.holds t 0x20000100#32 0xA1B2C3D4#32 && t.pc == 0x20000002#32) = true := by
  decide

theorem test_cNop_T104 : steps (setup configA 0x20000000#32 [] [] []) (.half 0x0001#16)
    (fun t => t.pc == 0x20000002#32) = true := by decide

theorem test_cAddi_T105 : steps (setup configA 0x20000000#32 [(5#5, 0x10#32)] [] []) (.half 0x1281#16)
    (fun t => t.reg 5#5 == 0xFFFFFFF0#32 && t.pc == 0x20000002#32) = true := by decide

theorem test_cAddi_T106 : steps (setup configA 0x20000000#32 [(5#5, 0xFFFFFFFF#32)] [] []) (.half 0x02FD#16)
    (fun t => t.reg 5#5 == 0x1E#32 && t.pc == 0x20000002#32) = true := by decide

theorem test_cJal_T107 : steps (setup configA 0x20001000#32 [] [] []) (.half 0x3001#16)
    (fun t => t.reg 1#5 == 0x20001002#32 && t.pc == 0x20000800#32) = true := by decide

theorem test_cJal_T108 : steps (setup configA 0x20000000#32 [] [] []) (.half 0x2FFD#16)
    (fun t => t.reg 1#5 == 0x20000002#32 && t.pc == 0x200007FE#32) = true := by decide

theorem test_cLi_T109 : steps (setup configA 0x20000000#32 [] [] []) (.half 0x5281#16)
    (fun t => t.reg 5#5 == 0xFFFFFFE0#32 && t.pc == 0x20000002#32) = true := by decide

theorem test_cLi_T110 : steps (setup configA 0x20000000#32 [] [] []) (.half 0x4005#16)
    (fun t => t.pc == 0x20000002#32) = true := by decide

theorem test_cAddi16sp_T111 : steps (setup configA 0x20000000#32 [(2#5, 0x20001000#32)] [] []) (.half 0x7101#16)
    (fun t => t.reg 2#5 == 0x20000E00#32 && t.pc == 0x20000002#32) = true := by decide

theorem test_cAddi16sp_T144 :
    steps
      (setup configA 0x20000000#32 [(2#5, 0x20000100#32)] [] [(0x305#12, 0x20000400#32)]) (.half 0x6101#16)
      (fun t => t.csrRead 0x342#12 == 0x2#32 && t.csrRead 0x341#12 == 0x20000000#32 &&
        t.csrRead 0x343#12 == 0x6101#32 && t.csrRead 0x300#12 == 0x1800#32 && t.pc == 0x20000400#32) = true := by
  decide

theorem test_cLui_T113 : steps (setup configA 0x20000000#32 [] [] []) (.half 0x6285#16)
    (fun t => t.reg 5#5 == 0x1000#32 && t.pc == 0x20000002#32) = true := by decide

theorem test_cLui_T145 :
    steps
      (setup configA 0x20000000#32 [] [] [(0x305#12, 0x20000400#32)]) (.half 0x6281#16)
      (fun t => t.csrRead 0x342#12 == 0x2#32 && t.csrRead 0x341#12 == 0x20000000#32 &&
        t.csrRead 0x343#12 == 0x6281#32 && t.csrRead 0x300#12 == 0x1800#32 && t.pc == 0x20000400#32) = true := by
  decide

theorem test_cSrli_T116 : steps (setup configA 0x20000000#32 [(8#5, 0x80000000#32)] [] []) (.half 0x807D#16)
    (fun t => t.reg 8#5 == 0x1#32 && t.pc == 0x20000002#32) = true := by decide

theorem test_cSrai_T117 : steps (setup configA 0x20000000#32 [(8#5, 0x80000000#32)] [] []) (.half 0x8411#16)
    (fun t => t.reg 8#5 == 0xF8000000#32 && t.pc == 0x20000002#32) = true := by decide

theorem test_cAndi_T118 : steps (setup configA 0x20000000#32 [(8#5, 0x12345678#32)] [] []) (.half 0x987D#16)
    (fun t => t.pc == 0x20000002#32) = true := by decide

theorem test_cAndi_T119 : steps (setup configA 0x20000000#32 [(8#5, 0x12345678#32)] [] []) (.half 0x883D#16)
    (fun t => t.reg 8#5 == 0x8#32 && t.pc == 0x20000002#32) = true := by decide

theorem test_cSub_T120 : steps (setup configA 0x20000000#32 [(8#5, 0x0#32), (9#5, 0x1#32)] [] []) (.half 0x8C05#16)
    (fun t => t.reg 8#5 == 0xFFFFFFFF#32 && t.pc == 0x20000002#32) = true := by decide

theorem test_cXor_T121 :
    steps
      (setup configA 0x20000000#32 [(8#5, 0xFF00FF00#32), (9#5, 0xFF00FF0#32)] [] []) (.half 0x8C25#16)
      (fun t => t.reg 8#5 == 0xF0F0F0F0#32 && t.pc == 0x20000002#32) = true := by
  decide

theorem test_cOr_T122 :
    steps
      (setup configA 0x20000000#32 [(8#5, 0xFF00FF00#32), (9#5, 0xFF00FF0#32)] [] []) (.half 0x8C45#16)
      (fun t => t.reg 8#5 == 0xFFF0FFF0#32 && t.pc == 0x20000002#32) = true := by
  decide

theorem test_cAnd_T123 :
    steps
      (setup configA 0x20000000#32 [(8#5, 0xFF00FF00#32), (9#5, 0xFF00FF0#32)] [] []) (.half 0x8C65#16)
      (fun t => t.reg 8#5 == 0xF000F00#32 && t.pc == 0x20000002#32) = true := by
  decide

theorem test_cJ_T124 : steps (setup configA 0x20000010#32 [] [] []) (.half 0xBFFD#16)
    (fun t => t.pc == 0x2000000E#32) = true := by decide

theorem test_cBeqz_T125 : steps (setup configA 0x20000400#32 [(8#5, 0x0#32)] [] []) (.half 0xD001#16)
    (fun t => t.pc == 0x20000300#32) = true := by decide

theorem test_cBeqz_T126 : steps (setup configA 0x20000000#32 [(8#5, 0x1#32)] [] []) (.half 0xCC7D#16)
    (fun t => t.pc == 0x20000002#32) = true := by decide

theorem test_cBnez_T127 : steps (setup configA 0x20000000#32 [(15#5, 0x1#32)] [] []) (.half 0xEFFD#16)
    (fun t => t.pc == 0x200000FE#32) = true := by decide

theorem test_cSlli_T128 : steps (setup configA 0x20000000#32 [(5#5, 0x3#32)] [] []) (.half 0x02FE#16)
    (fun t => t.reg 5#5 == 0x80000000#32 && t.pc == 0x20000002#32) = true := by decide

theorem test_cSlli_T143 :
    steps
      (setup configA 0x20000000#32 [(5#5, 0x1#32)] [] [(0x305#12, 0x20000400#32)]) (.half 0x1282#16)
      (fun t => t.csrRead 0x342#12 == 0x2#32 && t.csrRead 0x341#12 == 0x20000000#32 &&
        t.csrRead 0x343#12 == 0x1282#32 && t.csrRead 0x300#12 == 0x1800#32 && t.pc == 0x20000400#32) = true := by
  decide

theorem test_cLwsp_T129 :
    steps
      (setup configA 0x20000000#32 [(2#5, 0x20000004#32)] [(0x20000100#32, 0xCAFEF00D#32)] []) (.half 0x52FE#16)
      (fun t => t.reg 5#5 == 0xCAFEF00D#32 && t.pc == 0x20000002#32) = true := by
  decide

theorem test_cLwsp_T141 :
    steps
      (setup configA 0x20000000#32 [(2#5, 0x20000100#32)] [] [(0x305#12, 0x20000400#32)]) (.half 0x4002#16)
      (fun t => t.csrRead 0x342#12 == 0x2#32 && t.csrRead 0x341#12 == 0x20000000#32 &&
        t.csrRead 0x343#12 == 0x4002#32 && t.csrRead 0x300#12 == 0x1800#32 && t.pc == 0x20000400#32) = true := by
  decide

theorem test_cJr_T131 : steps (setup configA 0x20000000#32 [(5#5, 0x20000201#32)] [] []) (.half 0x8282#16)
    (fun t => t.pc == 0x20000200#32) = true := by decide

theorem test_cJr_T142 :
    steps
      (setup configA 0x20000000#32 [] [] [(0x305#12, 0x20000400#32)]) (.half 0x8002#16)
      (fun t => t.csrRead 0x342#12 == 0x2#32 && t.csrRead 0x341#12 == 0x20000000#32 &&
        t.csrRead 0x343#12 == 0x8002#32 && t.csrRead 0x300#12 == 0x1800#32 && t.pc == 0x20000400#32) = true := by
  decide

theorem test_cMv_T133 : steps (setup configA 0x20000000#32 [(6#5, 0xDEADBEEF#32)] [] []) (.half 0x829A#16)
    (fun t => t.reg 5#5 == 0xDEADBEEF#32 && t.pc == 0x20000002#32) = true := by decide

theorem test_cEbreak_T135 :
    steps
      (setup configA 0x20000000#32 [] [] [(0x305#12, 0x20000400#32)]) (.half 0x9002#16)
      (fun t => t.csrRead 0x342#12 == 0x3#32 && t.csrRead 0x341#12 == 0x20000000#32 &&
        t.csrRead 0x343#12 == 0x0#32 && t.csrRead 0x300#12 == 0x1800#32 && t.pc == 0x20000400#32) = true := by
  decide

theorem test_cEbreak_T136 :
    steps
      (setup configB 0x20000000#32 [] [] [(0x305#12, 0x20000401#32)]) (.half 0x9002#16)
      (fun t => t.csrRead 0x342#12 == 0x3#32 && t.csrRead 0x341#12 == 0x20000000#32 &&
        t.csrRead 0x343#12 == 0x0#32 && t.csrRead 0x300#12 == 0x1800#32 && t.pc == 0x20000424#32) = true := by
  decide

theorem test_cJalr_T132 : steps (setup configA 0x20000000#32 [(1#5, 0x20000200#32)] [] []) (.half 0x9082#16)
    (fun t => t.reg 1#5 == 0x20000002#32 && t.pc == 0x20000200#32) = true := by decide

theorem test_cAdd_T134 : steps (setup configA 0x20000000#32 [(5#5, 0xFFFFFFFF#32), (6#5, 0x2#32)] [] []) (.half 0x929A#16)
    (fun t => t.reg 5#5 == 0x1#32 && t.pc == 0x20000002#32) = true := by decide

theorem test_cSwsp_T130 :
    steps
      (setup configA 0x20000000#32 [(2#5, 0x20000004#32), (31#5, 0xA1B2C3D4#32)] [] []) (.half 0xDFFE#16)
      (fun t => State.holds t 0x20000100#32 0xA1B2C3D4#32 && t.pc == 0x20000002#32) = true := by
  decide

theorem test_sh1add_T160 :
    steps
      (setup configB 0x20000000#32 [(6#5, 0x80000001#32), (7#5, 0x1#32)] [] []) (.full 0x207322B3#32)
      (fun t => t.reg 5#5 == 0x3#32 && t.pc == 0x20000004#32) = true := by
  decide

theorem test_sh2add_T161 :
    steps
      (setup configB 0x20000000#32 [(6#5, 0x3#32), (7#5, 0x20000000#32)] [] []) (.full 0x207342B3#32)
      (fun t => t.reg 5#5 == 0x2000000C#32 && t.pc == 0x20000004#32) = true := by
  decide

theorem test_sh3add_T162 :
    steps
      (setup configB 0x20000000#32 [(6#5, 0x20000000#32), (7#5, 0xFFFFFFFF#32)] [] []) (.full 0x207362B3#32)
      (fun t => t.reg 5#5 == 0xFFFFFFFF#32 && t.pc == 0x20000004#32) = true := by
  decide

theorem test_andn_T163 :
    steps
      (setup configB 0x20000000#32 [(6#5, 0xFFFF0000#32), (7#5, 0xFF00FF00#32)] [] []) (.full 0x407372B3#32)
      (fun t => t.reg 5#5 == 0xFF0000#32 && t.pc == 0x20000004#32) = true := by
  decide

theorem test_orn_T164 :
    steps
      (setup configB 0x20000000#32 [(6#5, 0xFFFF0000#32), (7#5, 0xFF00FF00#32)] [] []) (.full 0x407362B3#32)
      (fun t => t.reg 5#5 == 0xFFFF00FF#32 && t.pc == 0x20000004#32) = true := by
  decide

theorem test_xnor_T165 :
    steps
      (setup configB 0x20000000#32 [(6#5, 0xFFFF0000#32), (7#5, 0xFF00FF00#32)] [] []) (.full 0x407342B3#32)
      (fun t => t.reg 5#5 == 0xFF0000FF#32 && t.pc == 0x20000004#32) = true := by
  decide

theorem test_clz_T166 : steps (setup configB 0x20000000#32 [(6#5, 0x0#32)] [] []) (.full 0x60031293#32)
    (fun t => t.reg 5#5 == 0x20#32 && t.pc == 0x20000004#32) = true := by decide

theorem test_clz_T195 :
    steps
      (setup configA 0x20000000#32 [(6#5, 0x1#32)] [] [(0x305#12, 0x20000400#32)]) (.full 0x60031293#32)
      (fun t => t.csrRead 0x342#12 == 0x2#32 && t.csrRead 0x341#12 == 0x20000000#32 &&
        t.csrRead 0x343#12 == 0x60031293#32 && t.csrRead 0x300#12 == 0x1800#32 && t.pc == 0x20000400#32) = true := by
  decide

theorem test_ctz_T169 : steps (setup configB 0x20000000#32 [(6#5, 0x0#32)] [] []) (.full 0x60131293#32)
    (fun t => t.reg 5#5 == 0x20#32 && t.pc == 0x20000004#32) = true := by decide

theorem test_ctz_T170 : steps (setup configB 0x20000000#32 [(6#5, 0x80000000#32)] [] []) (.full 0x60131293#32)
    (fun t => t.reg 5#5 == 0x1F#32 && t.pc == 0x20000004#32) = true := by decide

theorem test_cpop_T171 : steps (setup configB 0x20000000#32 [(6#5, 0xFFFFFFFF#32)] [] []) (.full 0x60231293#32)
    (fun t => t.reg 5#5 == 0x20#32 && t.pc == 0x20000004#32) = true := by decide

theorem test_cpop_T172 : steps (setup configB 0x20000000#32 [(6#5, 0x0#32)] [] []) (.full 0x60231293#32)
    (fun t => t.reg 5#5 == 0x0#32 && t.pc == 0x20000004#32) = true := by decide

theorem test_max_T173 :
    steps
      (setup configB 0x20000000#32 [(6#5, 0x80000000#32), (7#5, 0x7FFFFFFF#32)] [] []) (.full 0x0A7362B3#32)
      (fun t => t.reg 5#5 == 0x7FFFFFFF#32 && t.pc == 0x20000004#32) = true := by
  decide

theorem test_maxu_T174 :
    steps
      (setup configB 0x20000000#32 [(6#5, 0x80000000#32), (7#5, 0x7FFFFFFF#32)] [] []) (.full 0x0A7372B3#32)
      (fun t => t.reg 5#5 == 0x80000000#32 && t.pc == 0x20000004#32) = true := by
  decide

theorem test_min_T175 :
    steps
      (setup configB 0x20000000#32 [(6#5, 0x80000000#32), (7#5, 0x7FFFFFFF#32)] [] []) (.full 0x0A7342B3#32)
      (fun t => t.reg 5#5 == 0x80000000#32 && t.pc == 0x20000004#32) = true := by
  decide

theorem test_minu_T176 :
    steps
      (setup configB 0x20000000#32 [(6#5, 0x80000000#32), (7#5, 0x7FFFFFFF#32)] [] []) (.full 0x0A7352B3#32)
      (fun t => t.reg 5#5 == 0x7FFFFFFF#32 && t.pc == 0x20000004#32) = true := by
  decide

theorem test_sextB_T177 : steps (setup configB 0x20000000#32 [(6#5, 0x12345680#32)] [] []) (.full 0x60431293#32)
    (fun t => t.reg 5#5 == 0xFFFFFF80#32 && t.pc == 0x20000004#32) = true := by decide

theorem test_sextH_T178 : steps (setup configB 0x20000000#32 [(6#5, 0x12348000#32)] [] []) (.full 0x60531293#32)
    (fun t => t.reg 5#5 == 0xFFFF8000#32 && t.pc == 0x20000004#32) = true := by decide

theorem test_zextH_T179 : steps (setup configB 0x20000000#32 [(6#5, 0xFFFF8000#32)] [] []) (.full 0x080342B3#32)
    (fun t => t.reg 5#5 == 0x8000#32 && t.pc == 0x20000004#32) = true := by decide

theorem test_rol_T180 :
    steps
      (setup configB 0x20000000#32 [(6#5, 0x80000001#32), (7#5, 0x1#32)] [] []) (.full 0x607312B3#32)
      (fun t => t.reg 5#5 == 0x3#32 && t.pc == 0x20000004#32) = true := by
  decide

theorem test_rol_T181 :
    steps
      (setup configB 0x20000000#32 [(6#5, 0x80000001#32), (7#5, 0x20#32)] [] []) (.full 0x607312B3#32)
      (fun t => t.reg 5#5 == 0x80000001#32 && t.pc == 0x20000004#32) = true := by
  decide

theorem test_ror_T182 :
    steps
      (setup configB 0x20000000#32 [(6#5, 0x80000001#32), (7#5, 0x1#32)] [] []) (.full 0x607352B3#32)
      (fun t => t.reg 5#5 == 0xC0000000#32 && t.pc == 0x20000004#32) = true := by
  decide

theorem test_rori_T183 : steps (setup configB 0x20000000#32 [(6#5, 0x80000001#32)] [] []) (.full 0x61F35293#32)
    (fun t => t.reg 5#5 == 0x3#32 && t.pc == 0x20000004#32) = true := by decide

theorem test_rori_T184 : steps (setup configB 0x20000000#32 [(6#5, 0x80000001#32)] [] []) (.full 0x60035293#32)
    (fun t => t.reg 5#5 == 0x80000001#32 && t.pc == 0x20000004#32) = true := by decide

theorem test_orcB_T185 : steps (setup configB 0x20000000#32 [(6#5, 0x1000080#32)] [] []) (.full 0x28735293#32)
    (fun t => t.reg 5#5 == 0xFF0000FF#32 && t.pc == 0x20000004#32) = true := by decide

theorem test_rev8_T186 : steps (setup configB 0x20000000#32 [(6#5, 0x11223344#32)] [] []) (.full 0x69835293#32)
    (fun t => t.reg 5#5 == 0x44332211#32 && t.pc == 0x20000004#32) = true := by decide

theorem test_bclr_T187 :
    steps
      (setup configB 0x20000000#32 [(6#5, 0xFFFFFFFF#32), (7#5, 0x3F#32)] [] []) (.full 0x487312B3#32)
      (fun t => t.reg 5#5 == 0x7FFFFFFF#32 && t.pc == 0x20000004#32) = true := by
  decide

theorem test_bclri_T188 : steps (setup configB 0x20000000#32 [(6#5, 0xFFFFFFFF#32)] [] []) (.full 0x48031293#32)
    (fun t => t.reg 5#5 == 0xFFFFFFFE#32 && t.pc == 0x20000004#32) = true := by decide

theorem test_bext_T189 : steps (setup configB 0x20000000#32 [(6#5, 0x2#32), (7#5, 0x21#32)] [] []) (.full 0x487352B3#32)
    (fun t => t.reg 5#5 == 0x1#32 && t.pc == 0x20000004#32) = true := by decide

theorem test_bexti_T190 : steps (setup configB 0x20000000#32 [(6#5, 0x7FFFFFFF#32)] [] []) (.full 0x49F35293#32)
    (fun t => t.reg 5#5 == 0x0#32 && t.pc == 0x20000004#32) = true := by decide

theorem test_binv_T191 : steps (setup configB 0x20000000#32 [(6#5, 0x0#32), (7#5, 0x1F#32)] [] []) (.full 0x687312B3#32)
    (fun t => t.reg 5#5 == 0x80000000#32 && t.pc == 0x20000004#32) = true := by decide

theorem test_binvi_T192 : steps (setup configB 0x20000000#32 [(6#5, 0x10#32)] [] []) (.full 0x68431293#32)
    (fun t => t.reg 5#5 == 0x0#32 && t.pc == 0x20000004#32) = true := by decide

theorem test_bset_T193 : steps (setup configB 0x20000000#32 [(6#5, 0x0#32), (7#5, 0x0#32)] [] []) (.full 0x287312B3#32)
    (fun t => t.reg 5#5 == 0x1#32 && t.pc == 0x20000004#32) = true := by decide

theorem test_bseti_T194 : steps (setup configB 0x20000000#32 [(6#5, 0x1#32)] [] []) (.full 0x29F31293#32)
    (fun t => t.reg 5#5 == 0x80000001#32 && t.pc == 0x20000004#32) = true := by decide

/-! ## One step: instructions without a vector, from their rules -/

/-- 40 R239: `ecall` at 0x200 in user mode (V3A: no PMP). -/
theorem test_ecall :
    steps { start configA 0x00000200#32 [] with priv := .user } (.full 0x00000073#32)
      (fun t => t.csr.mcause == 8#32 && t.csr.mepc == 0x200#32 && t.csr.mtval == 0#32 && t.priv == .machine) = true := by
  decide

/-- 40 R239, 60 R503: from machine mode on V3B with a vectored `mtvec`, number 5. -/
theorem test_ecall_vector :
    steps (setup configB 0x20000000#32 [] [] [(0x305#12, 0x20000401#32)]) (.full 0x00000073#32)
      (fun t => t.csr.mcause == 11#32 && t.pc == 0x20000414#32) = true := by
  decide

/-- 40 R240, 60 R503: `ebreak` on V3B, number 9. -/
theorem test_ebreak :
    steps (setup configB 0x20000000#32 [] [] [(0x305#12, 0x20000401#32)]) (.full 0x00100073#32)
      (fun t => t.csr.mcause == 3#32 && t.csr.mepc == 0x20000000#32 && t.csr.mtval == 0#32 && t.pc == 0x20000424#32) =
      true := by
  decide

/-- 40 R240: with `ebreakm` set and a debugger, the entry of debug mode. -/
theorem test_ebreak_debug :
    steps
      { setup { configA with debuggerPresent := true } 0x20000000#32 [] [] [] with
        dbg := { DebugCsrs.reset with dcsr := { DebugCsrs.reset.dcsr with ebreakm := true } } }
      (.full 0x00100073#32)
      (fun t => t.debugMode && t.dbg.dpc == 0x20000000#32 && t.dbg.dcsr.cause == 1#3) = true := by
  decide

/-- 41 R269: the example of the rule. -/
theorem test_mret :
    steps (setup configA 0x20000000#32 [] [] [(0x300#12, 0x80#32), (0x341#12, 0x1000#32)]) (.full 0x30200073#32)
      (fun t => t.pc == 0x1000#32 && t.csr.mstatus.mie && t.priv == .user) = true := by
  decide

/-- 41 R269, T232: in user mode an illegal instruction, its word in `mtval`. -/
theorem test_mret_user :
    steps { setup configA 0x20000000#32 [] [] [(0x305#12, 0x20000400#32)] with priv := .user } (.full 0x30200073#32)
      (fun t => t.csr.mcause == 2#32 && t.csr.mtval == 0x30200073#32 && t.priv == .machine) = true := by
  decide

/-- 41 R270, 61 R611: the core sleeps after the `wfi`. -/
theorem test_wfi :
    steps (start configA 0x20000000#32 []) (.full 0x10500073#32)
      (fun t => t.pc == 0x20000004#32 && t.sleep == some .wfi) = true := by
  decide

/-- 61 R613: as a WFE, with an event already pending, it does not sleep. -/
theorem test_wfi_event :
    steps { start configA 0x20000000#32 [] with eventPending := true, pfic := { Pfic.reset with wfitowfe := true } }
      (.full 0x10500073#32)
      (fun t => t.pc == 0x20000004#32 && t.sleep == none && !t.eventPending) = true := by
  decide

/-- 46 R441, R442, R445, R446: the XW loads, under the rows of `xwRows`. -/
theorem test_cLbu :
    steps (setup configX 0x20000000#32 [(10#5, 0x20000100#32)] [(0x20000104#32, 0x82345678#32)] []) (.half 0x3D04#16)
      (fun t => t.reg 9#5 == 0x82#32 && t.pc == 0x20000002#32) = true := by
  decide

theorem test_cLhu :
    steps (setup configX 0x20000000#32 [(10#5, 0x200000FA#32)] [(0x20000100#32, 0x82345678#32)] []) (.half 0x3106#16)
      (fun t => t.reg 9#5 == 0x8234#32 && t.pc == 0x20000002#32) = true := by
  decide

theorem test_cLbusp :
    steps (setup configX 0x20000000#32 [(2#5, 0x20000100#32)] [(0x20000100#32, 0x82345678#32)] []) (.half 0x61C4#16)
      (fun t => t.reg 17#5 == 0x82#32 && t.pc == 0x20000002#32) = true := by
  decide

theorem test_cLhusp :
    steps (setup configX 0x20000000#32 [(2#5, 0x200000FE#32)] [(0x20000100#32, 0x82345678#32)] []) (.half 0x7144#16)
      (fun t => t.reg 17#5 == 0x8234#32 && t.pc == 0x20000002#32) = true := by
  decide

/-- 46 R443, R444, R447, R448: the XW stores. -/
theorem test_cSb :
    steps (setup configX 0x20000000#32 [(9#5, 0xA1B2C3D4#32), (10#5, 0x20000100#32)] [(0x20000100#32, 0#32)] [])
      (.half 0xA504#16) (fun t => State.holds t 0x20000100#32 0xD400#32 && t.pc == 0x20000002#32) = true := by
  decide

theorem test_cSh :
    steps (setup configX 0x20000000#32 [(9#5, 0xA1B2C3D4#32), (10#5, 0x200000FE#32)] [(0x20000100#32, 0#32)] [])
      (.half 0xA906#16) (fun t => State.holds t 0x20000100#32 0xC3D40000#32 && t.pc == 0x20000002#32) = true := by
  decide

theorem test_cSbsp :
    steps (setup configX 0x20000000#32 [(17#5, 0xA1B2C3D4#32), (2#5, 0x20000102#32)] [(0x20000100#32, 0#32)] [])
      (.half 0xE0C4#16) (fun t => State.holds t 0x20000100#32 0xD4000000#32 && t.pc == 0x20000002#32) = true := by
  decide

theorem test_cShsp :
    steps (setup configX 0x20000000#32 [(17#5, 0xA1B2C3D4#32), (2#5, 0x200000FA#32)] [(0x20000100#32, 0#32)] [])
      (.half 0xF1C4#16) (fun t => State.holds t 0x20000100#32 0xC3D4#32 && t.pc == 0x20000002#32) = true := by
  decide

/-! ## One step: the machine's own events -/

/-- 60 R503, R524: SysTick taken through slot 12, its bit in `mcause` (the table of 95 part 2). -/
theorem test_interrupt_slot :
    goesTo
      (step
        { setup configB 0x20000002#32 [] [] [(0x305#12, 0x20000401#32), (0x300#12, 0x1808#32)] with
          env := [⟨[], false, false⟩]
          pfic := { Pfic.reset with en := irqBit 12#8, pend := irqBit 12#8 } })
      (fun t => t.csr.mcause == 0x8000000C#32 && t.pc == 0x20000430#32 && t.csr.mepc == 0x20000002#32 &&
        t.csrRead 0x300#12 == 0x1880#32) = true := by
  decide +kernel

/-- 60 R537: NMI at level 2 on V3B (95, nesting overflow). -/
theorem test_overflow :
    goesTo
      (step
        { setup configB 0x20000440#32 [] [] [(0x305#12, 0x20000401#32), (0x300#12, 0x1880#32), (0xBC1#12, 1#32)] with
          env := [⟨[], false, false⟩]
          pfic := { Pfic.reset with pend := irqBit 2#8 }
          nest := [⟨16#8, false, ⟨0#32, 0#32, 0#32, false, .user⟩⟩, ⟨17#8, false, ⟨0#32, 0#32, 0#32, false, .user⟩⟩] })
      (fun t => t.pc == 0x20000408#32 && t.csr.mcause == 0x80000002#32 && t.csrRead 0x300#12 == 0x1800#32 &&
        t.csrRead 0xBC1#12 == 0x40000701#32) = true := by
  decide

/-- 20 R134, R136: configuration B of the PMP table of 95 part 2, five of its rows. -/
theorem test_pmp_table :
    let p : Pmp :=
      { cfg := #v[⟨true, .napot, false, false, true⟩, ⟨false, .napot, true, true, true⟩, ⟨false, .off, false, false, false⟩,
          ⟨false, .off, false, false, false⟩]
        addr := #v[0x0800003F#32, 0x080003FF#32, 0#32, 0#32] }
    p.cfgWord = 0x00001F99#32 ∧ p.allows .machine .store [0x200001FC#32] = false ∧
      p.allows .machine .store [0x20000200#32] = true ∧ p.allows .user .fetch [0x20001FFE#32] = true ∧
      p.allows .user .load [0x20002000#32] = false ∧ p.allows .machine .store [0x20002000#32] = true := by
  decide

/-- 61 R605: three rows of the SysTick table of 95 part 2. -/
theorem test_tick_table :
    let a : State := { start configA 0#32 [] with stk := { SysTick.reset with ste := true, cnt := 0xFFFFFFFF#32, cmpHi := 1#32 } }
    let b : State :=
      { start configB 0#32 [] with stk := { SysTick.reset with ste := true, stre := true, cnt := 3#32, cmp := 3#32 } }
    let d : State :=
      { start configB 0#32 [] with stk := { SysTick.reset with ste := true, mode := true, stre := true, cmp := 3#32 } }
    (a.tick.stk.cntHi = 1#32 ∧ a.tick.stk.cnt = 0#32 ∧ a.tick.pending 12#8 = true) ∧ b.tick.stk.cnt = 0#32 ∧
      d.tick.stk.cnt = 3#32 := by
  decide

/-- 60 R546: three rows of the PFIC_CFGR table of 95 part 2. -/
theorem test_cfgr_table :
    let s := start configA 0#32 []
    (s.writeCfgr 0xFA050002#32).devWord .cfgr = 2#32 ∧ (s.writeCfgr 0xBEEF0003#32).devWord .cfgr = 0#32 ∧
      (s.writeCfgr 0xBCAF0010#32).pending 3#8 = true ∧ s.cfgrRefusal 0xBCAF000C#32 = some .cfgrConflict := by
  decide

/-- The host's placement of an instruction runs it first (log 40). -/
theorem test_withFetchWord :
    goesTo (step (State.reset.withFetchWord 32 0xFFF00093)) (fun t => t.reg 1#5 == 0xFFFFFFFF#32) = true := by
  decide

/-! ## Witnesses: states and operands that meet the hypotheses of each obligation, clause by clause -/

/-- The lowest and the highest word of each encoding (pattern, mask) meet its clause. -/
def edges (l : List (Word × Word)) : Bool := l.all (fun c => c.1 &&& c.2 == c.1 && (c.1 ||| ~~~c.2) &&& c.2 == c.1)

/-- The same for parcels. -/
def edges16 (l : List (Half × Half)) : Bool := l.all (fun c => c.1 &&& c.2 == c.1 && (c.1 ||| ~~~c.2) &&& c.2 == c.1)

/-- V3B with B. -/
def stateB : State := start configB 0x20000000#32 []

/-- In user mode, in debug mode, and in user mode with `intsyscr` locked. -/
def userB : State := { stateB with priv := .user }
def debugB : State := { stateB with debugMode := true }
def lockedB : State :=
  { userB with csr := { stateB.csr with intsyscr := { stateB.csr.intsyscr with lock := true } } }

theorem witness_ImmediateArithmetic :
    edges
      [(0x00000037#32, 0x0000007F#32), (0x00000017#32, 0x0000007F#32), (0x00000013#32, 0x0000707F#32),
        (0x00002013#32, 0x0000707F#32), (0x00003013#32, 0x0000707F#32), (0x00004013#32, 0x0000707F#32),
        (0x00006013#32, 0x0000707F#32), (0x00007013#32, 0x0000707F#32), (0x00001013#32, 0xFE00707F#32),
        (0x00005013#32, 0xFE00707F#32), (0x40005013#32, 0xFE00707F#32)] = true := by
  decide

theorem witness_RegisterArithmetic :
    edges
      [(0x00000033#32, 0xFE00707F#32), (0x40000033#32, 0xFE00707F#32), (0x00001033#32, 0xFE00707F#32),
        (0x00002033#32, 0xFE00707F#32), (0x00003033#32, 0xFE00707F#32), (0x00004033#32, 0xFE00707F#32),
        (0x00005033#32, 0xFE00707F#32), (0x40005033#32, 0xFE00707F#32), (0x00006033#32, 0xFE00707F#32),
        (0x00007033#32, 0xFE00707F#32)] = true := by
  decide

theorem witness_MultiplyProducts :
    edges
      [(0x02000033#32, 0xFE00707F#32), (0x02001033#32, 0xFE00707F#32), (0x02002033#32, 0xFE00707F#32),
        (0x02003033#32, 0xFE00707F#32)] = true := by
  decide

theorem witness_DivideValues :
    edges
      [(0x02004033#32, 0xFE00707F#32), (0x02005033#32, 0xFE00707F#32), (0x02006033#32, 0xFE00707F#32),
        (0x02007033#32, 0xFE00707F#32)] = true := by
  decide

/-- x5, with a divisor of 0 and with the overflow pair. -/
theorem witness_DivideCorners :
    (5#5 : Reg) ≠ 0#5 ∧ (start configA 0#32 [(6#5, 7#32)]).reg 7#5 = 0#32 ∧
      (start configA 0#32 [(6#5, 0x80000000#32), (7#5, 0xFFFFFFFF#32)]).reg 6#5 = 0x80000000#32 ∧
      (start configA 0#32 [(6#5, 0x80000000#32), (7#5, 0xFFFFFFFF#32)]).reg 7#5 = 0xFFFFFFFF#32 := by
  decide

theorem witness_ShiftAddLogicMinMax :
    stateB.cfg.has .zba = true ∧ stateB.cfg.has .zbb = true ∧ edges
      [(0x20002033#32, 0xFE00707F#32), (0x20004033#32, 0xFE00707F#32), (0x20006033#32, 0xFE00707F#32),
        (0x40007033#32, 0xFE00707F#32), (0x40006033#32, 0xFE00707F#32), (0x40004033#32, 0xFE00707F#32),
        (0x0A006033#32, 0xFE00707F#32), (0x0A007033#32, 0xFE00707F#32), (0x0A004033#32, 0xFE00707F#32),
        (0x0A005033#32, 0xFE00707F#32)] = true := by
  decide

/-- Counts 0 and 32 of all zeros and all ones, and a count between. -/
theorem witness_BitCounts :
    stateB.cfg.has .zbb = true ∧
      (∀ j < 32, (0#32 : Word).getLsbD (31 - j) = false) ∧ (0xFFFFFFFF#32 : Word).getLsbD (31 - 0) = true ∧
      (∀ j < 15, (0x00010000#32 : Word).getLsbD (31 - j) = false) ∧ (0x00010000#32 : Word).getLsbD (31 - 15) = true ∧
      (∀ j < 32, (0#32 : Word).getLsbD j = false) ∧ (0xFFFFFFFF#32 : Word).getLsbD 0 = true ∧
      (∀ j < 16, (0x00010000#32 : Word).getLsbD j = false) ∧ (0x00010000#32 : Word).getLsbD 16 = true ∧
      edges
      [(0x60001013#32, 0xFFF0707F#32), (0x60101013#32, 0xFFF0707F#32), (0x60201013#32, 0xFFF0707F#32)] = true := by
  decide

theorem witness_ExtendAndBytes :
    stateB.cfg.has .zbb = true ∧ edges
      [(0x60401013#32, 0xFFF0707F#32), (0x60501013#32, 0xFFF0707F#32), (0x08004033#32, 0xFFF0707F#32),
        (0x28705013#32, 0xFFF0707F#32), (0x69805013#32, 0xFFF0707F#32)] = true := by
  decide

/-- The rotations of 0x80000001 by 1 and by 32, both ways. -/
theorem witness_Rotates :
    stateB.cfg.has .zbb = true ∧
      (∀ j : Fin 32, (3#32 : Word).getLsbD ((j.val + 1) % 32) = (0x80000001#32 : Word).getLsbD j.val) ∧
      (∀ j : Fin 32, (0x80000001#32 : Word).getLsbD ((j.val + 32) % 32) = (0x80000001#32 : Word).getLsbD j.val) ∧
      (∀ j : Fin 32, (0xC0000000#32 : Word).getLsbD j.val = (0x80000001#32 : Word).getLsbD ((j.val + 1) % 32)) ∧
      (∀ j : Fin 32, (3#32 : Word).getLsbD j.val = (0x80000001#32 : Word).getLsbD ((j.val + 31) % 32)) ∧
      edges
      [(0x60001033#32, 0xFE00707F#32), (0x60005033#32, 0xFE00707F#32), (0x60005013#32, 0xFE00707F#32)] = true := by
  decide

theorem witness_SingleBits :
    stateB.cfg.has .zbs = true ∧ edges
      [(0x48001033#32, 0xFE00707F#32), (0x48001013#32, 0xFE00707F#32), (0x48005033#32, 0xFE00707F#32),
        (0x48005013#32, 0xFE00707F#32), (0x68001033#32, 0xFE00707F#32), (0x68001013#32, 0xFE00707F#32),
        (0x28001033#32, 0xFE00707F#32), (0x28001013#32, 0xFE00707F#32)] = true := by
  decide

/-- Each clause at its least and its greatest immediate or register: `c.addi4spn` 4 and 1020, `c.addi` of x1 and x31,
`c.addi16sp` 16 and -16, `c.lui` of x1 by 1 and of x31 by -1; the reserved zero immediates. -/
theorem witness_CompressedImmediates :
    ((0x0040#16 : Half) &&& 0xE003#16 = 0#16 ∧ (0x1FFC#16 : Half) &&& 0xE003#16 = 0#16) ∧
      ((0x0081#16 : Half) &&& 0xE003#16 = 1#16 ∧ (0x0081#16 : Half).extractLsb' 7 5 ≠ 0#5) ∧
      ((0x1FFD#16 : Half) &&& 0xE003#16 = 1#16 ∧ (0x1FFD#16 : Half).extractLsb' 7 5 ≠ 0#5) ∧
      ((0x6141#16 : Half) &&& 0xEF83#16 = 0x6101#16 ∧ (0x717D#16 : Half) &&& 0xEF83#16 = 0x6101#16) ∧
      ((0x6085#16 : Half) &&& 0xE003#16 = 0x6001#16 ∧ (0x6085#16 : Half).extractLsb' 7 5 ≠ 2#5 ∧
        bits6 (0x6085#16 : Half) ≠ 0#6) ∧
      ((0x7FFD#16 : Half) &&& 0xE003#16 = 0x6001#16 ∧ (0x7FFD#16 : Half).extractLsb' 7 5 ≠ 2#5 ∧
        bits6 (0x7FFD#16 : Half) ≠ 0#6) ∧
      ((0x0004#16 : Half) &&& 0xE003#16 = 0#16 ∧ (0x6101#16 : Half) &&& 0xEF83#16 = 0x6101#16 ∧
        (0x6F81#16 : Half) &&& 0xE003#16 = 0x6001#16 ∧ bits6 (0x6F81#16 : Half) = 0#6) ∧
      stateB.cfg.xw = [] ∧ edges16
      [(0x0000#16, 0xE003#16), (0x0001#16, 0xEF83#16), (0x0001#16, 0xE003#16), (0x4001#16, 0xE003#16),
        (0x6101#16, 0xEF83#16), (0x6001#16, 0xE003#16), (0x0000#16, 0xE003#16), (0x6101#16, 0xEF83#16),
        (0x6001#16, 0xE003#16)] = true := by
  decide

/-- `c.mv` and `c.add` from x1 and x31 besides the edges of the encodings. -/
theorem witness_CompressedRegisters :
    ((0x8006#16 : Half) &&& 0xF003#16 = 0x8002#16 ∧ (0x8006#16 : Half).extractLsb' 2 5 ≠ 0#5) ∧
      ((0x9FFE#16 : Half) &&& 0xF003#16 = 0x9002#16 ∧ (0x9FFE#16 : Half).extractLsb' 2 5 ≠ 0#5) ∧
      stateB.cfg.xw = [] ∧ edges16
      [(0x8001#16, 0xFC03#16), (0x8401#16, 0xFC03#16), (0x8801#16, 0xEC03#16), (0x8C01#16, 0xFC63#16),
        (0x8C21#16, 0xFC63#16), (0x8C41#16, 0xFC63#16), (0x8C61#16, 0xFC63#16), (0x0002#16, 0xF003#16),
        (0x8002#16, 0xF003#16), (0x9002#16, 0xF003#16), (0x9001#16, 0xFC03#16), (0x9401#16, 0xFC03#16),
        (0x1002#16, 0xF003#16)] = true := by
  decide

/-- `c.jr` and `c.jalr` of x1 and x31 besides the edges of the encodings. -/
theorem witness_JumpsAndLinks :
    ((0x8082#16 : Half) &&& 0xF07F#16 = 0x8002#16 ∧ (0x8082#16 : Half).extractLsb' 7 5 ≠ 0#5) ∧
      ((0x9F82#16 : Half) &&& 0xF07F#16 = 0x9002#16 ∧ (0x9F82#16 : Half).extractLsb' 7 5 ≠ 0#5) ∧
      stateB.cfg.xw = [] ∧ edges
      [(0x0000006F#32, 0x0000007F#32), (0x00000067#32, 0x0000707F#32)] = true ∧
      edges16
      [(0x2001#16, 0xE003#16), (0xA001#16, 0xE003#16), (0x8002#16, 0xF07F#16), (0x8002#16, 0xFFFF#16),
        (0x9002#16, 0xF07F#16)] = true := by
  decide

theorem witness_ConditionalBranches :
    edges
      [(0x00000063#32, 0x0000707F#32), (0x00001063#32, 0x0000707F#32), (0x00004063#32, 0x0000707F#32),
        (0x00005063#32, 0x0000707F#32), (0x00006063#32, 0x0000707F#32), (0x00007063#32, 0x0000707F#32)] = true ∧
      edges16
      [(0xC001#16, 0xE003#16), (0xE001#16, 0xE003#16)] = true := by
  decide

/-! ### Memory -/

/-- The bytes the kernel has computed. -/
theorem bytesAre_of {s : State} {as : List Word} {bs : List Byte}
    (h : (match s.bytesAt as with | .ok l => l == bs | .error _ => false) = true) : BytesAre s as bs := by
  unfold BytesAre
  split at h
  · rename_i l e
    rw [e, eq_of_beq h]
  · cases h

/-- Eight bytes of RAM at the top of the address space and at 0x20000100; x6, x2 and x8 hold addresses. -/
def ramState (c : Config) (a : Word) : State :=
  setup c 0x20000000#32 [(2#5, a), (6#5, a), (8#5, a)]
    [(0xFFFFFFFC#32, 0xF2345678#32), (0x20000100#32, 0x8112F384#32)] []

/-- The words with rs1 = x6 and offset 0, at the top word, halfword and byte of memory. -/
theorem witness_LoadsFromMemory :
    let s := ramState configA 0xFFFFFFFC#32
    let h := ramState configA 0xFFFFFFFE#32
    let b := ramState configA 0xFFFFFFFF#32
    let off : Word := (bitsI 0x00030283#32).signExtend 32
    edges [(0x00000003#32, 0x0000707F#32), (0x00004003#32, 0x0000707F#32), (0x00001003#32, 0x0000707F#32),
        (0x00005003#32, 0x0000707F#32), (0x00002003#32, 0x0000707F#32)] = true ∧
      (0x00030283#32 : Word) &&& 0x0000707F#32 = 0x00000003#32 ∧ Loadable b (b.reg 6#5 + off) .byte [0xF2#8] ∧
      Loadable h (h.reg 6#5 + off) .half [0x34#8, 0xF2#8] ∧
      Loadable s (s.reg 6#5 + off) .word [0x78#8, 0x56#8, 0x34#8, 0xF2#8] :=
  ⟨by decide, by decide, ⟨by decide, .inl (by decide), by decide, by decide, rfl⟩,
    ⟨by decide, .inl (by decide), by decide, by decide, rfl⟩, ⟨by decide, .inl (by decide), by decide, by decide, rfl⟩⟩

/-- `c.lw x8, 0(x8)`, `c.lwsp x8, 0`, the reserved `c.lwsp x0`, and XW operands with base x6 or sp. -/
theorem witness_CompressedLoads :
    let s := ramState configB 0x20000100#32
    (0x4000#16 : Half) &&& 0xE003#16 = 0x4000#16 ∧ ((0x4402#16 : Half) &&& 0xE003#16 = 0x4002#16 ∧
      (0x4402#16 : Half).extractLsb' 7 5 ≠ 0#5) ∧ (0x4002#16 : Half) &&& 0xEF83#16 = 0x4002#16 ∧ s.cfg.xw = [] ∧
      Loadable s (s.reg (shortReg 0#3) + (bitsLw 0x4000#16).setWidth 32) .word [0x84#8, 0xF3#8, 0x12#8, 0x81#8] ∧
      Loadable s (s.reg 2#5 + (0#8 : BitVec 8).setWidth 32) .word [0x84#8, 0xF3#8, 0x12#8, 0x81#8] ∧
      Loadable s (s.reg 6#5 + 3#32) .byte [0x81#8] ∧ Loadable s (s.reg 6#5 + 2#32) .half [0x12#8, 0x81#8] ∧
      Loadable s (s.reg 2#5 + 3#32) .byte [0x81#8] ∧ Loadable s (s.reg 2#5 + 2#32) .half [0x12#8, 0x81#8] :=
  ⟨by decide, by decide, by decide, rfl, ⟨by decide, .inl (by decide), by decide, by decide, rfl⟩,
    ⟨by decide, .inl (by decide), by decide, by decide, rfl⟩, ⟨by decide, .inl (by decide), by decide, by decide, rfl⟩,
    ⟨by decide, .inl (by decide), by decide, by decide, rfl⟩, ⟨by decide, .inl (by decide), by decide, by decide, rfl⟩,
    ⟨by decide, .inl (by decide), by decide, by decide, rfl⟩⟩

/-- The words with rs1 = x6 and offset 0, at the top of memory. -/
theorem witness_StoresToRam :
    let s := ramState configA 0xFFFFFFFC#32
    let off : Word := (bitsS 0x00730023#32).signExtend 32
    edges [(0x00000023#32, 0x0000707F#32), (0x00001023#32, 0x0000707F#32), (0x00002023#32, 0x0000707F#32)] = true ∧
      Storable s (s.reg 6#5 + off) .byte ∧ Storable s (s.reg 6#5 + off) .half ∧ Storable s (s.reg 6#5 + off) .word :=
  ⟨by decide, ⟨by decide, by decide, by decide, by decide⟩, ⟨by decide, by decide, by decide, by decide⟩,
    ⟨by decide, by decide, by decide, by decide⟩⟩

theorem witness_CompressedStores :
    let s := ramState configB 0x20000100#32
    (0xC000#16 : Half) &&& 0xE003#16 = 0xC000#16 ∧ (0xC002#16 : Half) &&& 0xE003#16 = 0xC002#16 ∧
      Storable s (s.reg (shortReg 0#3) + (bitsLw 0xC000#16).setWidth 32) .word ∧
      Storable s (s.reg 2#5 + (0#8 : BitVec 8).setWidth 32) .word ∧ Storable s (s.reg 6#5 + 7#32) .byte ∧
      Storable s (s.reg 6#5 + 6#32) .half ∧ Storable s (s.reg 2#5 + 7#32) .byte ∧ Storable s (s.reg 2#5 + 6#32) .half :=
  ⟨by decide, by decide, ⟨by decide, by decide, by decide, by decide⟩, ⟨by decide, by decide, by decide, by decide⟩,
    ⟨by decide, by decide, by decide, by decide⟩, ⟨by decide, by decide, by decide, by decide⟩,
    ⟨by decide, by decide, by decide, by decide⟩, ⟨by decide, by decide, by decide, by decide⟩⟩

/-! ### Encoding and steps -/

theorem witness_DecodeOfEncode :
    (Instr.jal 31#5 0x1FFFFE#21).wellFormed = true ∧ (Instr.jal 31#5 0x1FFFFE#21).isXw = false ∧
      (Instr.jal 31#5 0x1FFFFE#21).onMember configA = true ∧ (Instr.cNop 0#6).wellFormed = true ∧
      (∀ row ∈ xwRows, (0x0001#16 : Half) &&& row.mask = row.pattern → maskOnes row.mask < maskOnes (Instr.cNop 0#6).rowMask) ∧
      (Instr.bseti 31#5 31#5 31#5).wellFormed = true ∧
      (Instr.bseti 31#5 31#5 31#5).isXw = false ∧ (Instr.bseti 31#5 31#5 31#5).onMember configB = true := by
  decide

theorem witness_EncodeOfDecode :
    decode configA (.half 0x9002#16) = .instr .cEbreak ∧ Instr.cEbreak.isXw = false ∧
      decode configB (.full 0x29F31293#32) = .instr (.bseti 5#5 6#5 31#5) ∧
        (Instr.bseti 5#5 6#5 31#5).isXw = false := by
  decide

/-- Two supplied rows over the `c.lw` row, of 5 and 7 mask bits: a parcel of neither, one where the masks have as many bits
as the table's, one that the second row takes. -/
def xwOver : Config :=
  { configB with
    xw :=
      [⟨.lbu, 0x4000#16, 0xE003#16, ⟨2, true⟩, ⟨7, true⟩, []⟩,
        ⟨.lhu, 0x5000#16, 0xF403#16, ⟨2, true⟩, ⟨7, true⟩, [(5, 1)]⟩] }

theorem witness_XwDecoding :
    xwOver.variant.isV3A = false ∧ (∀ row ∈ xwOver.xw, (0x6000#16 : Half) &&& row.mask ≠ row.pattern) ∧
      (decode { xwOver with xw := [] } (.half 0x4000#16) = .instr (.cLw 0#3 0#3 0#7) ∧
        ∀ row ∈ xwOver.xw, (0x4000#16 : Half) &&& row.mask = row.pattern →
          maskOnes row.mask ≤ maskOnes (Instr.cLw 0#3 0#3 0#7).rowMask) ∧
      (∃ row ∈ xwOver.xw, (0x5020#16 : Half) &&& row.mask = row.pattern ∧
        (∀ r ∈ xwOver.xw, (0x5020#16 : Half) &&& r.mask = r.pattern → r ≠ row → maskOnes r.mask < maskOnes row.mask) ∧
          decode { xwOver with xw := [] } (.half 0x5020#16) = .instr (.cLw 0#3 0#3 0x60#7) ∧
            maskOnes (Instr.cLw 0#3 0#3 0x60#7).rowMask < maskOnes row.mask) := by
  decide

/-- 30 R156: the row with more 1 bits in its mask wins, a supplied row among them; V3A has none. -/
theorem test_xw_order :
    decode xwOver (.half 0x5020#16) = .instr (.cLhu 8#5 8#5 2#32) ∧
      decode xwOver (.half 0x4000#16) = .instr (.cLw 0#3 0#3 0#7) ∧
      decode { xwOver with variant := .v3a } (.half 0x5020#16) = .instr (.cLw 0#3 0#3 0x60#7) := by
  decide

/-- The reset state of a member with code at `pc`. -/
def codeState (c : Config) (f : Fetched) : State := State.at (start c 0x20000000#32 []) f

/-- Nothing but the instruction is due. -/
theorem undisturbed_code (c : Config) (f : Fetched) (hc : c = configA ∨ c = configB)
    (hf : f = .full 0x60031293#32 ∨ f = .half 0x0000#16 ∨ f = .full 0x007322AF#32 ∨ f = .full 0x00000013#32) :
    Undisturbed (codeState c f) := by
  obtain rfl | rfl := hc <;> obtain rfl | rfl | rfl | rfl := hf <;>
    exact ⟨rfl, rfl, rfl, rfl, rfl, rfl, rfl, by decide, by decide⟩

theorem fetch_code (c : Config) (w : Word) (hc : c = configA ∨ c = configB)
    (hw : w = 0x60031293#32 ∨ w = 0x007322AF#32 ∨ w = 0x00000013#32) : FetchReady (codeState c (.full w)) (.full w) := by
  obtain rfl | rfl := hc <;> obtain rfl | rfl | rfl := hw <;>
    exact ⟨by decide, ⟨by decide, by decide, .inl (by decide), by decide, rfl, rfl⟩,
      ⟨by decide, by decide, .inl (by decide), by decide, rfl, rfl⟩⟩

/-- `clz` on V3A and the zero parcel on V3B are illegal, an AMO on V3B is unknown; the illegal ones can trap. -/
theorem witness_UnknownWords :
    let a := codeState configA (.full 0x60031293#32)
    let z := codeState configB (.half 0x0000#16)
    let u := codeState configB (.full 0x007322AF#32)
    (Undisturbed a ∧ FetchReady a (.full 0x60031293#32) ∧ decode a.cfg (.full 0x60031293#32) = .illegal ∧
      (∀ i, decode a.cfg (.full 0x60031293#32) ≠ .instr i) ∧ ExceptionReady a 2#32 0#32) ∧
      (Undisturbed z ∧ FetchReady z (.half 0x0000#16) ∧ decode z.cfg (.half 0x0000#16) = .illegal) ∧
      (Undisturbed u ∧ FetchReady u (.full 0x007322AF#32) ∧ decode u.cfg (.full 0x007322AF#32) = .unknown) := by
  have ha : decode (codeState configA (.full 0x60031293#32)).cfg (.full 0x60031293#32) = .illegal := by decide
  have hi : ∀ i, decode (codeState configA (.full 0x60031293#32)).cfg (.full 0x60031293#32) ≠ .instr i := by
    intro i h
    rw [ha] at h
    cases h
  exact ⟨⟨undisturbed_code _ _ (.inl rfl) (.inl rfl), fetch_code _ _ (.inl rfl) (.inl rfl), ha, hi, ⟨rfl, by decide, by decide, rfl⟩, .inl ⟨rfl, rfl, rfl⟩⟩,
    ⟨undisturbed_code _ _ (.inr rfl) (.inr (.inl rfl)),
      ⟨by decide, by decide, by decide, .inl (by decide), by decide, rfl, rfl⟩, by decide⟩,
    undisturbed_code _ _ (.inr rfl) (.inr (.inr (.inl rfl))), fetch_code _ _ (.inr rfl) (.inr (.inl rfl)), by decide⟩

theorem witness_StepRunsDecoded :
    let s := codeState configA (.full 0x00000013#32)
    Undisturbed s ∧ FetchReady s (.full 0x00000013#32) ∧
      decode s.cfg (.full 0x00000013#32) = .instr (.addi 0#5 0#5 0#12) :=
  ⟨undisturbed_code _ _ (.inl rfl) (.inr (.inr (.inr rfl))), fetch_code _ _ (.inl rfl) (.inr (.inr rfl)), by decide⟩

/-- `lw x5, 1(x6)` and `sh x7, 1(x6)` under `refuse` and under `trap`. -/
theorem witness_MisalignedPolicy :
    let s := ramState configA 0x20000100#32
    let t := ramState { configA with misaligned := .trap } 0x20000100#32
    Width.word.aligned 0x20000101#32 = false ∧ Width.half.aligned 0x20000101#32 = false ∧
      (Instr.lw 5#5 6#5 1#12).feature ≠ .a ∧ (Instr.sh 7#5 6#5 1#12).feature ≠ .a ∧
      loadsFrom s (.lw 5#5 6#5 1#12) = some (0x20000101#32, .word) ∧ s.triggered .load 0x20000101#32 = .pass ∧
      s.cfg.misaligned = .refuse ∧ loadsFrom t (.lw 5#5 6#5 1#12) = some (0x20000101#32, .word) ∧
      t.triggered .load 0x20000101#32 = .pass ∧ t.cfg.misaligned = .trap ∧ ExceptionReady t 4#32 0#32 ∧
      storesTo s (.sh 7#5 6#5 1#12) = some (0x20000101#32, .half) ∧ s.triggered .store 0x20000101#32 = .pass ∧
      storesTo t (.sh 7#5 6#5 1#12) = some (0x20000101#32, .half) ∧ t.triggered .store 0x20000101#32 = .pass ∧
      ExceptionReady t 6#32 0#32 :=
  ⟨by decide, by decide, by decide, by decide, by decide, by decide, by decide, by decide, by decide, by decide,
    ⟨⟨rfl, by decide, by decide, rfl⟩, .inl ⟨rfl, rfl, rfl⟩⟩, by decide, by decide, by decide, by decide,
    ⟨rfl, by decide, by decide, rfl⟩, .inl ⟨rfl, rfl, rfl⟩⟩

/-- The accesses of a split access, one by one. -/
theorem splitReady_of {s : State} {k : AccessKind} {a : Word} {w : Width} (hp : s.cfg.misaligned = .split)
    (hm : w.aligned a = false) (hq : s.triggered k a = .pass)
    (hb : (w.addrs a).all (fun b => (s.target [b] == .ram || (k == .load && s.target [b] == .rom)) && s.pmpOk k [b]) = true) :
    SplitReady s k a w :=
  ⟨hp, hm, hq, fun b h => by simpa using List.all_eq_true.mp hb b h⟩

/-- Offset 1 inside memory, and at the top the wrap to address 0. -/
theorem witness_SplitAccess :
    let c : Config := { configA with misaligned := .split }
    let s := ramState c 0x20000100#32
    let t : State := State.loaded (ramState c 0xFFFFFFFE#32) [(0#32, 0x11#8), (1#32, 0x22#8), (2#32, 0x33#8)]
    let one : Word := (1#12 : BitVec 12).signExtend 32
    (SplitReady s .load (s.reg 6#5 + one) .half ∧ BytesAre s (Width.half.addrs (s.reg 6#5 + one)) [0xF3#8, 0x12#8]) ∧
      (SplitReady t .load (t.reg 6#5 + one) .half ∧
        BytesAre t (Width.half.addrs (t.reg 6#5 + one)) [0xF2#8, 0x11#8]) ∧
      (SplitReady t .load (t.reg 6#5 + one) .word ∧
        BytesAre t (Width.word.addrs (t.reg 6#5 + one)) [0xF2#8, 0x11#8, 0x22#8, 0x33#8]) ∧
      SplitReady t .store (t.reg 6#5 + one) .half ∧ SplitReady t .store (t.reg 6#5 + one) .word :=
  ⟨⟨splitReady_of rfl (by decide) (by decide) (by decide), bytesAre_of (by decide +kernel)⟩, ⟨splitReady_of rfl (by decide) (by decide) (by decide), bytesAre_of (by decide +kernel)⟩,
    ⟨splitReady_of rfl (by decide) (by decide) (by decide), bytesAre_of (by decide +kernel)⟩, splitReady_of rfl (by decide) (by decide) (by decide),
    splitReady_of rfl (by decide) (by decide) (by decide)⟩

/-- The compressed and XW forms with offset 0, over the top of memory. -/
theorem witness_SplitAccess_compressed :
    let t : State := State.loaded (ramState { configB with misaligned := .split } 0xFFFFFFFF#32)
      [(0#32, 0x11#8), (1#32, 0x22#8), (2#32, 0x33#8)]
    ∀ a ∈ [t.reg (shortReg 0#3) + (0#7 : BitVec 7).setWidth 32, t.reg 2#5 + (0#8 : BitVec 8).setWidth 32, t.reg 6#5 + 0#32,
        t.reg 2#5 + 0#32],
      SplitReady t .load a .word ∧ BytesAre t (Width.word.addrs a) [0xF2#8, 0x11#8, 0x22#8, 0x33#8] ∧
        SplitReady t .load a .half ∧ BytesAre t (Width.half.addrs a) [0xF2#8, 0x11#8] ∧ SplitReady t .store a .word ∧
          SplitReady t .store a .half := by
  intro t a ha
  have e : a = 0xFFFFFFFF#32 := by
    simp only [List.mem_cons, List.not_mem_nil, or_false] at ha
    rcases ha with h | h | h | h <;> rw [h] <;> decide
  subst e
  exact ⟨splitReady_of rfl (by decide) (by decide) (by decide), bytesAre_of (by decide +kernel),
    splitReady_of rfl (by decide) (by decide) (by decide), bytesAre_of (by decide +kernel),
    splitReady_of rfl (by decide) (by decide) (by decide), splitReady_of rfl (by decide) (by decide) (by decide)⟩

/-- A RAM, a ROM and a gap; V3B's PMP with region 0 a locked word at 0x20000100 without permissions. -/
def holeState : State :=
  { start { configB with memmap := [⟨0x20000000, 0x1000, .ram⟩, ⟨0x30000000, 0x1000, .rom⟩] } 0x20000000#32
      [(5#5, 0x40000000#32), (6#5, 0x20000100#32), (7#5, 0x30000000#32), (8#5, 0x20001000#32)] with
    pmp := { Pmp.reset with cfg := Pmp.reset.cfg.set 0 ⟨true, .na4, false, false, false⟩
                            addr := Pmp.reset.addr.set 0 0x08000040#32 } }

/-- Under `split`: a word over the end of RAM, its first two bytes written. -/
def edgeState (pc : Word) : State :=
  State.loaded { holeState with cfg := { holeState.cfg with misaligned := .split }, pc := pc }
    [(0x20000FFE#32, 0x13#8), (0x20000FFF#32, 0#8)]

/-- A load and a store each denied by PMP and to nothing, a store to ROM; a split load and store over the end of RAM; the
first parcel nowhere, and the second past the end of RAM. -/
theorem witness_AccessFaults :
    (let s := holeState
     s.debugMode = false ∧ loadsFrom s (.lw 1#5 6#5 0#12) = some (0x20000100#32, .word) ∧
      Width.word.aligned 0x20000100#32 = true ∧ s.triggered .load 0x20000100#32 = .pass ∧
      s.pmpOk .load (Width.word.addrs 0x20000100#32) = false ∧
      loadsFrom s (.lb 1#5 5#5 0#12) = some (0x40000000#32, .byte) ∧ s.target (Width.byte.addrs 0x40000000#32) = .nothing ∧
      storesTo s (.sw 1#5 6#5 0#12) = some (0x20000100#32, .word) ∧ s.triggered .store 0x20000100#32 = .pass ∧
      s.pmpOk .store (Width.word.addrs 0x20000100#32) = false ∧
      s.target (Width.byte.addrs 0x40000000#32) = .nothing ∧ s.target (Width.half.addrs 0x30000000#32) = .rom ∧
      storesTo s (.sh 1#5 7#5 0#12) = some (0x30000000#32, .half) ∧
      (∀ rd rs2 rs1 aq rl, Instr.sh 1#5 7#5 0#12 ≠ .scW rd rs2 rs1 aq rl)) ∧
      (let s := edgeState 0x20000000#32
       let a : Word := 0x20000FFE#32
       s.cfg.misaligned = .split ∧ Width.word.aligned a = false ∧ s.debugMode = false ∧
        loadsFrom s (.lw 1#5 8#5 0xFFE#12) = some (a, .word) ∧ storesTo s (.sw 1#5 8#5 0xFFE#12) = some (a, .word) ∧
        (Instr.lw 1#5 8#5 0xFFE#12).feature ≠ .a ∧ (Instr.sw 1#5 8#5 0xFFE#12).feature ≠ .a ∧
        s.triggered .load a = .pass ∧ s.triggered .store a = .pass ∧
        (s.target [0x20000FFE#32] = .ram ∧ s.byteAt 0x20000FFE#32 = some 0x13#8) ∧
        (s.target [0x20000FFF#32] = .ram ∧ s.byteAt 0x20000FFF#32 = some 0#8) ∧ s.target [0x20001000#32] = .nothing ∧
        s.target [0x20001001#32] = .nothing) ∧
      (let s : State := { holeState with pc := 0x40000000#32 }
       Undisturbed s ∧ s.csr.corecfgr.nmiIe = false ∧ ExceptionReady s 1#32 0#32 ∧
        s.pmpRelied [0x40000000#32, 0x40000001#32] = false ∧ s.target [0x40000000#32, 0x40000001#32] = .nothing) ∧
      (let s := edgeState 0x20000FFE#32
       Undisturbed s ∧ s.csr.corecfgr.nmiIe = false ∧ ExceptionReady s 1#32 0#32 ∧
        (0x0013#16 : Half).extractLsb' 0 2 = 3#2 ∧ ParcelReady s 0x20000FFE#32 0x0013#16 ∧
        s.pmpRelied [0x20001000#32, 0x20001001#32] = false ∧ s.target [0x20001000#32, 0x20001001#32] = .nothing) := by
  refine ⟨⟨by decide, by decide, by decide, by decide, by decide, by decide, by decide, by decide, by decide, by decide,
    by decide, by decide, by decide, ?_⟩, by decide,
    ⟨⟨rfl, rfl, rfl, rfl, rfl, rfl, rfl, by decide, by decide⟩, by decide,
      ⟨⟨rfl, by decide, by decide, rfl⟩, .inl ⟨rfl, rfl, rfl⟩⟩, by decide, by decide⟩,
    ⟨rfl, rfl, rfl, rfl, rfl, rfl, rfl, by decide, by decide⟩, by decide,
      ⟨⟨rfl, by decide, by decide, rfl⟩, .inl ⟨rfl, rfl, rfl⟩⟩, by decide,
      ⟨by decide, by decide, .inl (by decide), by decide, rfl, rfl⟩, by decide, by decide⟩
  intro rd rs2 rs1 aq rl h
  cases h

/-- `sc.w` with its reservation where PMP denies, where nothing answers and in ROM. -/
theorem witness_AccessFaults_sc :
    let held (a : Word) : State := { holeState with reservation := some a }
    let ready (rs1 : Reg) (a : Word) : Prop :=
      (held a).debugMode = false ∧ (held a).reg rs1 = a ∧ Width.word.aligned a = true ∧ (held a).reservation = some a
    (ready 6#5 0x20000100#32 ∧ (held 0x20000100#32).pmpOk .store (Width.word.addrs 0x20000100#32) = false) ∧
      (ready 5#5 0x40000000#32 ∧ (held 0x40000000#32).target (Width.word.addrs 0x40000000#32) = .nothing) ∧
      (ready 7#5 0x30000000#32 ∧ (held 0x30000000#32).target (Width.word.addrs 0x30000000#32) = .rom) :=
  ⟨⟨⟨rfl, by decide, by decide, rfl⟩, by decide⟩, ⟨⟨rfl, by decide, by decide, rfl⟩, by decide⟩,
    ⟨rfl, by decide, by decide, rfl⟩, by decide⟩

/-- The same two fetches with NMI_IE on, and loads of each width and base from nothing in debug mode. -/
theorem witness_AccessFaults_nmi :
    let on (s : State) : State := { s with csr := { s.csr with corecfgr := { s.csr.corecfgr with nmiIe := true } } }
    let s := on { holeState with pc := 0x40000000#32 }
    let t := on (edgeState 0x20000FFE#32)
    let d : State := State.setReg { holeState with debugMode := true } 2#5 0x40000000#32
    (Undisturbed s ∧ s.isV3A = false ∧ s.csr.corecfgr.nmiIe = true ∧ TrapReady s 2#8 ∧ TargetIs s 2#8 0#32 ∧
      s.pmpRelied [0x40000000#32, 0x40000001#32] = false ∧ s.target [0x40000000#32, 0x40000001#32] = .nothing) ∧
      (Undisturbed t ∧ TrapReady t 2#8 ∧ TargetIs t 2#8 0#32 ∧ (0x0013#16 : Half).extractLsb' 0 2 = 3#2 ∧
        ParcelReady t 0x20000FFE#32 0x0013#16 ∧ t.target [0x20001000#32, 0x20001001#32] = .nothing) ∧
      (d.debugMode = true ∧ d.reg 5#5 + (0#12 : BitVec 12).signExtend 32 = 0x40000000#32 ∧ d.reg 5#5 + 0#32 = 0x40000000#32 ∧
        d.reg (shortReg 0#3) + (0#7 : BitVec 7).setWidth 32 = 0x20001000#32 ∧
        d.reg 2#5 + (0#8 : BitVec 8).setWidth 32 = 0x40000000#32 ∧
        ∀ w : Width, w ∈ [Width.byte, .half, .word] → w.aligned 0x40000000#32 = true ∧ w.aligned 0x20001000#32 = true ∧
          d.target (w.addrs 0x40000000#32) = .nothing ∧ d.target (w.addrs 0x20001000#32) = .nothing) :=
  ⟨⟨⟨rfl, rfl, rfl, rfl, rfl, rfl, rfl, by decide, by decide⟩, rfl, rfl, ⟨rfl, by decide, by decide, rfl⟩,
      .inl ⟨rfl, rfl, rfl⟩, by decide, by decide⟩,
    ⟨⟨rfl, rfl, rfl, rfl, rfl, rfl, rfl, by decide, by decide⟩, ⟨rfl, by decide, by decide, rfl⟩, .inl ⟨rfl, rfl, rfl⟩,
      by decide, ⟨by decide, by decide, .inl (by decide), by decide, rfl, rfl⟩, by decide⟩,
    by decide⟩

/-- 20 R120, 61 R630: a load from nothing in the program buffer ends it with `cmderr` 3 and takes a draw for `rd`. -/
theorem test_progbuf_load_fault :
    goesTo (exec (.lb 1#5 5#5 0#12) { holeState with debugMode := true })
      (fun t => t.dm.cmderr == 3#3 && t.draws == 1 && t.reg 5#5 == 0x40000000#32 && t.debugMode) = true := by
  decide

/-! ### Device registers -/

/-- x6 at an address, x7 with a value; two interrupts active. -/
def devState (c : Config) (a v : Word) : State :=
  { start c 0x20000000#32 [(6#5, a), (7#5, v)] with nest := [⟨16#8, false, ⟨0#32, 0#32, 0#32, false, .user⟩⟩] }

/-- A word access at the address of x6 is ready. -/
theorem deviceReady_dev {k : AccessKind} {c : Config} {a v : Word} (hc : c = configA ∨ c = configB)
    (ha : a ∈ [0xE000E000#32, 0xE000E01C#32, 0xE000E020#32, 0xE000E03C#32, 0xE000E300#32, 0xE000E31C#32, 0xE000E040#32,
      0xE000E044#32, 0xE000E048#32, 0xE000E050#32, 0xE000E060#32, 0xE000E06C#32, 0xE000E100#32, 0xE000E11C#32,
      0xE000E180#32, 0xE000E19C#32, 0xE000E200#32, 0xE000E21C#32, 0xE000E280#32, 0xE000E29C#32, 0xE000E400#32,
      0xE000E4FC#32, 0xE000ED10#32, 0xE000F000#32, 0xE000F008#32, 0xE000F010#32]) :
    DeviceReady (devState c a v) k a .word ∧ (devState c a v).pmpOk .load (Width.word.addrs a) = true ∧
      (devState c a v).triggered .load a = .pass := by
  obtain rfl | rfl := hc <;> cases k <;> simp only [List.mem_cons, List.not_mem_nil, or_false] at ha <;>
    rcases ha with rfl | rfl | rfl | rfl | rfl | rfl | rfl | rfl | rfl | rfl | rfl | rfl | rfl | rfl | rfl | rfl | rfl | rfl |
      rfl | rfl | rfl | rfl | rfl | rfl | rfl | rfl <;>
    exact ⟨⟨rfl, by rfl, by rfl⟩, by rfl, by rfl⟩

/-- x0's immediate offset 0 keeps the address of x6; the banks at their first and last register, the priority bytes of
numbers 0 and 255. -/
theorem witness_PficReads :
    (∀ a ∈ [0xE000E000#32 + 4#32 * (0#3 : BitVec 3).setWidth 32, 0xE000E000#32 + 4#32 * (7#3 : BitVec 3).setWidth 32,
        0xE000E020#32 + 4#32 * (0#3 : BitVec 3).setWidth 32, 0xE000E020#32 + 4#32 * (7#3 : BitVec 3).setWidth 32,
        0xE000E300#32 + 4#32 * (0#3 : BitVec 3).setWidth 32, 0xE000E300#32 + 4#32 * (7#3 : BitVec 3).setWidth 32],
      DeviceReady (devState configA a 0#32) .load a .word) ∧
      DeviceReady (devState configB 0xE000E400#32 0#32) .load (0xE000E400#32 + (0#8 : IrqNum).setWidth 32) .byte ∧
      DeviceReady (devState configB 0xE000E4FF#32 0#32) .load (0xE000E400#32 + (255#8 : IrqNum).setWidth 32) .byte ∧
      (devState configA 0xE000E01C#32 0#32).reg 6#5 + (0#12 : BitVec 12).signExtend 32 =
        0xE000E000#32 + 4#32 * (7#3 : BitVec 3).setWidth 32 := by
  refine ⟨?_, ⟨rfl, by decide, by decide⟩, ⟨rfl, by decide, by decide⟩, by decide⟩
  intro a ha
  refine (deviceReady_dev (.inl rfl) ?_).1
  simp only [List.mem_cons, List.not_mem_nil, or_false] at ha ⊢
  rcases ha with rfl | rfl | rfl | rfl | rfl | rfl <;> decide

/-- The first and the last register of each bank, on V3A and on V3B; words with and without bit 3, and PFIC_CFGR's EXCSET. -/
theorem witness_PficWrites :
    (∀ c ∈ [configA, configB],
      ∀ a ∈ [0xE000E100#32 + 4#32 * (0#3 : BitVec 3).setWidth 32, 0xE000E100#32 + 4#32 * (7#3 : BitVec 3).setWidth 32,
          0xE000E180#32 + 4#32 * (0#3 : BitVec 3).setWidth 32, 0xE000E180#32 + 4#32 * (7#3 : BitVec 3).setWidth 32,
          0xE000E200#32 + 4#32 * (0#3 : BitVec 3).setWidth 32, 0xE000E200#32 + 4#32 * (7#3 : BitVec 3).setWidth 32,
          0xE000E280#32 + 4#32 * (0#3 : BitVec 3).setWidth 32, 0xE000E280#32 + 4#32 * (7#3 : BitVec 3).setWidth 32],
        DeviceReady (devState c a 0xFFFFFFFF#32) .store a .word) ∧
      (devState configA 0xE000E11C#32 0#32).reg 6#5 + (0#12 : BitVec 12).signExtend 32 =
        0xE000E100#32 + 4#32 * (7#3 : BitVec 3).setWidth 32 ∧
      ((3#8 : IrqNum).extractLsb' 5 3 = 0#3 ∧ (0xFFFFFFFF#32 : Word).getLsbD ((3#8 : IrqNum).extractLsb' 0 5).toNat = true ∧
        (0xFFFFFFF7#32 : Word).getLsbD ((3#8 : IrqNum).extractLsb' 0 5).toNat = false) ∧
      (DeviceReady (devState configA 0xE000E048#32 0xBCAF0010#32) .store 0xE000E048#32 .word ∧
        (0xBCAF0010#32 : Word).extractLsb' 16 16 = 0xBCAF#16 ∧ (0xBCAF0010#32 : Word).extractLsb' 2 4 = 4#4) := by
  refine ⟨?_, by decide, by decide, (deviceReady_dev (.inl rfl) (by decide)).1, by decide, by decide⟩
  intro c hc a ha
  have hc' : c = configA ∨ c = configB := by simpa using hc
  refine (deviceReady_dev hc' ?_).1
  simp only [List.mem_cons, List.not_mem_nil, or_false] at ha ⊢
  rcases ha with rfl | rfl | rfl | rfl | rfl | rfl | rfl | rfl <;> decide

/-- Each register of the statement on the members that have it; the keyed store of PFIC_CFGR; SYSRESET and PFICRESET
clear. -/
theorem witness_DeviceReadBack :
      (∀ c ∈ [configA, configB],
        ∀ a ∈ [0xE000E040#32, 0xE000E044#32, 0xE000E048#32, 0xE000E050#32, 0xE000E060#32 + 4#32 * (0#2 : BitVec 2).setWidth 32,
            0xE000E060#32 + 4#32 * (3#2 : BitVec 2).setWidth 32, 0xE000E400#32 + 4#32 * (0#6 : BitVec 6).setWidth 32,
            0xE000E400#32 + 4#32 * (63#6 : BitVec 6).setWidth 32, 0xE000ED10#32, 0xE000F000#32, 0xE000F008#32, 0xE000F010#32],
          DeviceReady (devState c a 0xFA050003#32) .store a .word ∧
            (devState c a 0xFA050003#32).pmpOk .load (Width.word.addrs a) = true ∧
            (devState c a 0xFA050003#32).triggered .load a = .pass) ∧
      (devState configA 0#32 0#32).isV3A = true ∧ (devState configB 0#32 0#32).isV3A = false ∧
      (0xFA050003#32 : Word).extractLsb' 16 16 = 0xFA05#16 ∧ (0xFA050003#32 : Word).getLsbD 6 = false ∧
      (0x7FFFFFFF#32 : Word).getLsbD 31 = false := by
  refine ⟨?_, by decide, by decide, by decide, by decide, by decide⟩
  intro c hc a ha
  have hc' : c = configA ∨ c = configB := by simpa using hc
  refine deviceReady_dev hc' ?_
  simp only [List.mem_cons, List.not_mem_nil, or_false] at ha ⊢
  rcases ha with rfl | rfl | rfl | rfl | rfl | rfl | rfl | rfl | rfl | rfl | rfl | rfl <;> decide

/-- An instruction that stores nothing, and a store to RAM. -/
theorem witness_MemoryFrame :
    let s := ramState configA 0xFFFFFFFC#32
    (∃ t, exec (.addi 1#5 0#5 1#12) s = .next t) ∧ storesTo s (.addi 1#5 0#5 1#12) = none ∧
      (∃ t, exec (.sw 7#5 6#5 0#12) s = .next t) ∧ storesTo s (.sw 7#5 6#5 0#12) = some (0xFFFFFFFC#32, .word) ∧
        ∀ b ∈ Width.word.addrs 0xFFFFFFFC#32, isCoreDevice s.cfg b = false := by
  refine ⟨⟨_, rfl⟩, rfl, ⟨_, rfl⟩, by decide, ?_⟩
  intro b hb
  simp only [Width.addrs, List.mem_cons, List.not_mem_nil, or_false] at hb
  rcases hb with rfl | rfl | rfl | rfl <;> decide

/-! ### Atomics -/

theorem witness_LoadReserved :
    let s := ramState configA 0xFFFFFFFC#32
    s.isV3A = true ∧ (0x100322AF#32 : Word) &&& 0xF9F0707F#32 = 0x1000202F#32 ∧ edges
      [(0x1000202F#32, 0xF9F0707F#32)] = true ∧
      Loadable s (s.reg (rs1Of 0x100322AF#32)) .word [0x78#8, 0x56#8, 0x34#8, 0xF2#8] :=
  ⟨by decide, by decide, by decide, ⟨by decide, .inl (by decide), by decide, by decide, rfl⟩⟩

/-- Without a reservation, with one of another address, and with one of the address. -/
theorem witness_StoreConditional :
    let s := ramState configA 0x20000100#32
    let a := s.reg (rs1Of 0x187322AF#32)
    s.isV3A = true ∧ (0x187322AF#32 : Word) &&& 0xF800707F#32 = 0x1800202F#32 ∧ edges
      [(0x1800202F#32, 0xF800707F#32)] = true ∧
      Width.word.aligned a = true ∧ s.target (Width.word.addrs a) ≠ .device ∧ s.target (Width.word.addrs a) ≠ .platform ∧
      s.reservation ≠ some a ∧
      State.reservation { s with reservation := some 0x20000104#32 } ≠ some a ∧
      Storable { s with reservation := some 0x20000100#32 } a .word ∧
      State.reservation { s with reservation := some 0x20000100#32 } = some a :=
  ⟨by decide, by decide, by decide, by decide, by decide, by decide, by decide, by decide,
    ⟨by decide, by decide, by decide, by decide⟩, by decide⟩

theorem witness_AtomicOps :
    let s := ramState configA 0x20000100#32
    s.isV3A = true ∧ edges
      [(0x0800202F#32, 0xF800707F#32), (0x0000202F#32, 0xF800707F#32), (0x2000202F#32, 0xF800707F#32),
        (0x6000202F#32, 0xF800707F#32), (0x4000202F#32, 0xF800707F#32), (0x8000202F#32, 0xF800707F#32),
        (0xA000202F#32, 0xF800707F#32), (0xC000202F#32, 0xF800707F#32), (0xE000202F#32, 0xF800707F#32)] = true ∧ (0x007322AF#32 : Word) &&& 0xF800707F#32 = 0x0000202F#32 ∧
      Loadable s (s.reg (rs1Of 0x007322AF#32)) .word [0x84#8, 0xF3#8, 0x12#8, 0x81#8] ∧
      Storable s (s.reg (rs1Of 0x007322AF#32)) .word :=
  ⟨by decide, by decide, by decide, ⟨by decide, .inl (by decide), by decide, by decide, rfl⟩,
    ⟨by decide, by decide, by decide, by decide⟩⟩

/-- `lr.w` and `amoadd.w` at offsets 1 and 3 of a word; both at a device register. -/
theorem witness_AtomicStops :
    let s := ramState configA 0x20000101#32
    let t := ramState configA 0x20000103#32
    (Instr.lrW 5#5 6#5 0#1 0#1).feature = .a ∧ (Instr.amoaddW 5#5 7#5 6#5 0#1 0#1).feature = .a ∧
      Width.word.aligned 0x20000101#32 = false ∧ loadsFrom s (.lrW 5#5 6#5 0#1 0#1) = some (0x20000101#32, .word) ∧
      ExceptionReady s 4#32 0#32 ∧ Width.word.aligned 0x20000103#32 = false ∧
      storesTo t (.amoaddW 5#5 7#5 6#5 0#1 0#1) = some (0x20000103#32, .word) ∧ ExceptionReady t 6#32 0#32 ∧
      (let d := start configA 0x20000000#32 [(6#5, 0xE000ED10#32)]
       d.isV3A = true ∧ Width.word.aligned 0xE000ED10#32 = true ∧ d.target (Width.word.addrs 0xE000ED10#32) = .device ∧
        loadsFrom d (.lrW 5#5 6#5 0#1 0#1) = some (0xE000ED10#32, .word) ∧
        storesTo d (.amoaddW 5#5 7#5 6#5 0#1 0#1) = some (0xE000ED10#32, .word)) :=
  ⟨by decide, by decide, by decide, by decide, ⟨⟨rfl, by decide, by decide, rfl⟩, .inl ⟨rfl, rfl, rfl⟩⟩, by decide,
    by decide, ⟨⟨rfl, by decide, by decide, rfl⟩, .inl ⟨rfl, rfl, rfl⟩⟩, by decide⟩

/-! ### Control and status registers -/

/-- A machine-mode write and read, the read-only number read, user mode at `gintenr`, debug mode at `dcsr`. -/
theorem witness_CsrInstructions :
    edges
      [(0x00001073#32, 0x0000707F#32), (0x00002073#32, 0x0000707F#32), (0x00003073#32, 0x0000707F#32),
        (0x00005073#32, 0x0000707F#32), (0x00006073#32, 0x0000707F#32), (0x00007073#32, 0x0000707F#32)] = true ∧ CsrAllowed stateB 0x340#12 true ∧ CsrAllowed stateB 0xF12#12 false ∧
      CsrAllowed userB 0x800#12 true ∧ CsrAllowed debugB 0x7B0#12 true ∧
      (CsrAllowed stateB 0xBC0#12 true ∧ (0x2D#32 : Word).getLsbD 1 = false ∧ (2#32 : Word).getLsbD 1 = true) := by
  refine ⟨by decide, ?_, ?_, ?_, ?_, ?_, by decide, by decide⟩ <;> unfold CsrAllowed <;> decide

/-- Each ground for an illegal instruction: no such number, a debug register, user mode, a write of a read-only number, a
locked `intsyscr`. -/
theorem witness_CsrDeniedTraps :
    edges
      [(0x00001073#32, 0x0000707F#32), (0x00002073#32, 0x0000707F#32), (0x00003073#32, 0x0000707F#32),
        (0x00005073#32, 0x0000707F#32), (0x00006073#32, 0x0000707F#32), (0x00007073#32, 0x0000707F#32)] = true ∧ ExceptionReady stateB 2#32 0#32 ∧ CsrDenied stateB 0x304#12 false ∧ CsrDenied stateB 0x7B0#12 false ∧
      CsrDenied userB 0x300#12 false ∧ CsrDenied stateB 0xF12#12 true ∧ CsrDenied lockedB 0x804#12 false :=
  ⟨by decide, ⟨⟨rfl, by decide, by decide, rfl⟩, .inl ⟨rfl, rfl, rfl⟩⟩, by unfold CsrDenied; decide,
    by unfold CsrDenied; decide, by unfold CsrDenied; decide, by unfold CsrDenied; decide, by unfold CsrDenied; decide⟩

/-- A vendor number on V3A, a trigger write outside debug mode; user mode and a number it may use. -/
theorem witness_CsrAccessCheck :
    let a := start configA 0#32 []
    ¬CsrAllowed a 0x800#12 false ∧ ¬CsrDenied a 0x800#12 false ∧ ¬CsrAllowed stateB 0x7A1#12 true ∧
      ¬CsrDenied stateB 0x7A1#12 true ∧ userB.priv = .user ∧ userB.debugMode = false ∧
      CsrAllowed userB 0x804#12 true := by
  refine ⟨?_, ?_, ?_, ?_, rfl, rfl, ?_⟩
  · unfold CsrAllowed; decide
  · unfold CsrDenied; decide
  · unfold CsrAllowed; decide
  · unfold CsrDenied; decide
  · unfold CsrAllowed; decide

/-- The bounds of the level and of `corecfgr`, and the states its clauses distinguish: locked and unlocked regions, the
lower bound of a locked TOR region, both modes of MPP. -/
theorem witness_CsrWriteRules :
    let p : Pmp :=
      { Pmp.reset with
        cfg := #v[⟨false, .off, false, false, false⟩, ⟨true, .tor, false, false, false⟩, ⟨false, .na4, true, true, true⟩,
          ⟨false, .off, false, false, false⟩] }
    let s : State := { stateB with pmp := p }
    s.level ≤ 3 ∧ (0x2D#32 : Word).getLsbD 1 = false ∧ (3#32 : Word).getLsbD 1 = true ∧ s.pmp.cfg[(1 : Fin 4)].l = true ∧
      (∃ j : Fin 4, j.val = (0 : Fin 4).val + 1 ∧ s.pmp.cfg[j].l = true ∧ s.pmp.cfg[j].a = .tor) ∧
      s.pmp.cfg[(3 : Fin 4)].l = false ∧ (0x1800#32 : Word).extractLsb' 11 2 = 3#2 ∧
      (s.csrRead 0x3A0#12).extractLsb' (8 * 1) 8 = 0x88#8 ∧ (0x3B0#12 : CsrNum) + BitVec.ofNat 12 3 = 0x3B3#12 := by
  decide

/-! ### Physical memory protection -/

/-- A locked region 1, TOR from `pmpaddr0`; V3B. -/
def lockedState (a v : Word) : State :=
  { devState configB a v with
    pmp := { Pmp.reset with cfg := Pmp.reset.cfg.set 1 ⟨true, .tor, true, true, true⟩
                            addr := Pmp.reset.addr.set 1 0x3FFFFFFF#32 } }

/-- A write of the locked configuration, and a system reset. -/
theorem witness_PmpLockHolds :
    let s := lockedState 0xE000ED10#32 0x80000000#32
    (∃ t, exec (.csrrw 0#5 0x3A0#12 0#5) s = .next t) ∧ (∃ t, exec (.sw 7#5 6#5 0#12) s = .next t) ∧
      s.pmp.cfg[(1 : Fin 4)].l = true ∧ (0 : Fin 4).val + 1 = (1 : Fin 4).val ∧ s.pmp.cfg[(1 : Fin 4)].a = .tor := by
  refine ⟨?_, ?_, by decide, by decide, by decide⟩
  · obtain ⟨t, ht, -⟩ := goesTo_next (p := fun _ => true) (show goesTo (exec (.csrrw 0#5 0x3A0#12 0#5)
      (lockedState 0xE000ED10#32 0x80000000#32)) (fun _ => true) = true by decide)
    exact ⟨t, ht⟩
  · obtain ⟨t, ht, -⟩ := goesTo_next (p := fun _ => true) (show goesTo (exec (.sw 7#5 6#5 0#12)
      (lockedState 0xE000ED10#32 0x80000000#32)) (fun _ => true) = true by decide)
    exact ⟨t, ht⟩

/-- One region of each mode; NAPOT with its lowest 0 bit at 0, at 29 and nowhere. -/
theorem witness_PmpRegionMatch :
    let p : Pmp :=
      { Pmp.reset with
        cfg := #v[⟨false, .tor, true, true, true⟩, ⟨false, .tor, true, true, true⟩, ⟨false, .na4, true, true, true⟩,
          ⟨false, .napot, true, true, true⟩] }
    (Pmp.reset.cfg[(0 : Fin 4)].a = .off ∧ p.cfg[(0 : Fin 4)].a = .tor ∧ p.cfg[(1 : Fin 4)].a = .tor ∧
      (0 : Fin 4).val + 1 = (1 : Fin 4).val ∧ p.cfg[(2 : Fin 4)].a = .na4 ∧ p.cfg[(3 : Fin 4)].a = .napot) ∧
      (p.addr[(3 : Fin 4)].getLsbD 0 = false ∧ (∀ j < 29, (0x1FFFFFFF#32 : Word).getLsbD j = true) ∧
        (0x1FFFFFFF#32 : Word).getLsbD 29 = false ∧ ∀ j < 32, (0xFFFFFFFF#32 : Word).getLsbD j = true) := by
  decide

/-- A byte in a region, a byte in none, and the member without PMP. -/
theorem witness_PmpDecides :
    holeState.pmp.region 0x20000103#32 = some 0 ∧ holeState.pmp.region 0x20000104#32 = none ∧
      (start configA 0#32 []).isV3A = true ∧ (holeState.isV3A = false ∧ holeState.debugMode = false) := by
  decide

/-! ### Traps -/

/-- From both modes, through the base and through a word of an address table. -/
theorem witness_EnvironmentCall :
    let v : State := setup configB 0x20000000#32 [] [(0x20000414#32, 0x20001050#32)] [(0x305#12, 0x20000403#32)]
    ExceptionReady userB 8#32 0#32 ∧ ExceptionReady stateB 11#32 0#32 ∧
      ExceptionReady v 11#32 0x20001050#32 :=
  ⟨⟨⟨rfl, by decide, by decide, rfl⟩, .inl ⟨rfl, rfl, rfl⟩⟩, ⟨⟨rfl, by decide, by decide, rfl⟩, .inl ⟨rfl, rfl, rfl⟩⟩,
    ⟨rfl, by decide, by decide, rfl⟩,
    .inr (.inr ⟨by decide, by decide, by decide, .inl (by decide), .inr (by decide), bytesAre_of (by decide)⟩)⟩

/-- Channel 3 of V3B/C watches one kind of access in both modes: equal to `v`, or in its range. -/
def triggerState (k : AccessKind) (range : Bool) (v : Word) : State :=
  { start configB 0x20000000#32 [(6#5, 0x20000100#32)] with
    trig :=
      { Triggers.reset with
        channel := Triggers.reset.channel.set 3 ⟨false, range, true, true, k == .fetch, k == .store, k == .load, v⟩ } }

/-- Such a trigger fires: the other channels watch nothing. -/
theorem triggerState_fires {k : AccessKind} {range : Bool} {v x : Word}
    (hh : ChannelHits ⟨false, range, true, true, k == .fetch, k == .store, k == .load, v⟩ x)
    (ho : range = true → v ≠ 0xFFFFFFFF#32) : TriggerFires (triggerState k range v) k x := by
  refine ⟨rfl, rfl, ⟨3, ⟨fun _ => rfl, fun h => (by cases h), ?_, ?_, ?_⟩, hh⟩, ?_⟩
  · rintro rfl; rfl
  · rintro rfl; rfl
  · rintro rfl; rfl
  · intro i hw
    have hm := hw.1 rfl
    have hi : i = 3 := by
      revert hm
      match i with
      | 0 | 1 | 2 => intro hm; cases hm
      | 3 => intro _; rfl
    subst hi
    exact ⟨ho, fun _ => rfl⟩

/-- A breakpoint instruction in debug mode, sent to debug mode, and trapping; an execute trigger at the pc, a load trigger with
a range of 16 bytes, a store trigger. -/
theorem witness_Breakpoints :
    let d : State :=
      { start { configA with debuggerPresent := true } 0#32 [] with
        dbg := { DebugCsrs.reset with dcsr := { DebugCsrs.reset.dcsr with ebreakm := true, ebreaku := true } } }
    let x := triggerState .fetch false 0x20000000#32
    let l := triggerState .load true 0x20000107#32
    let w := triggerState .store false 0x20000100#32
    (State.debugMode { d with debugMode := true } = true ∧
      (d.debugMode = false ∧
        (d.cfg.debuggerPresent && (if d.priv = .machine then d.dbg.dcsr.ebreakm else d.dbg.dcsr.ebreaku)) = true) ∧
      ((stateB.cfg.debuggerPresent && (if stateB.priv = .machine then stateB.dbg.dcsr.ebreakm else stateB.dbg.dcsr.ebreaku)) =
        false ∧ ExceptionReady stateB 3#32 0#32)) ∧
      (ExceptionReady x 3#32 0#32 ∧ Undisturbed { x with trig := Triggers.reset } ∧ TriggerFires x .fetch 0x20000000#32) ∧
      (ExceptionReady l 3#32 0#32 ∧ loadsFrom l (.lw 5#5 6#5 0xC#12) = some (0x2000010C#32, .word) ∧
        (Instr.lw 5#5 6#5 0xC#12).feature ≠ .a ∧ TriggerFires l .load 0x2000010C#32) ∧
      (ExceptionReady w 3#32 0#32 ∧ storesTo w (.sw 5#5 6#5 0#12) = some (0x20000100#32, .word) ∧
        (Instr.sw 5#5 6#5 0#12).feature ≠ .a ∧ TriggerFires w .store 0x20000100#32 ∧ w.csr.mtvec.mode1 = false ∧
        ∀ b ∈ Width.word.addrs 0x20000100#32, isCoreDevice w.cfg b = false) := by
  refine ⟨⟨rfl, ⟨rfl, by decide⟩, by decide, ⟨rfl, by decide, by decide, rfl⟩, .inl ⟨rfl, rfl, rfl⟩⟩,
    ⟨⟨⟨rfl, by decide, by decide, rfl⟩, .inl ⟨rfl, rfl, rfl⟩⟩, ⟨rfl, rfl, rfl, rfl, rfl, rfl, rfl, by decide, by decide⟩,
      triggerState_fires (.inl ⟨rfl, rfl⟩) (by decide)⟩,
    ⟨⟨⟨rfl, by decide, by decide, rfl⟩, .inl ⟨rfl, rfl, rfl⟩⟩, by decide, by decide,
      triggerState_fires (.inr ⟨rfl, 3, by decide, by decide, by decide, ?_⟩) (by decide)⟩,
    ⟨⟨rfl, by decide, by decide, rfl⟩, .inl ⟨rfl, rfl, rfl⟩⟩, by decide, by decide,
      triggerState_fires (.inl ⟨rfl, rfl⟩) (by decide), rfl, ?_⟩
  · intro j hj
    by_cases h : j < 32
    · revert hj
      revert j
      decide
    · simp [BitVec.getLsbD_of_ge, Nat.not_lt.mp h]
  · intro b hb
    simp only [Width.addrs, List.mem_cons, List.not_mem_nil, or_false] at hb
    rcases hb with rfl | rfl | rfl | rfl <;> decide

/-- A load and a store under their triggers that would complete if no trigger were armed. -/
theorem witness_Breakpoints_data :
    let l : State := { triggerState .load true 0x20000107#32 with
      mem := (State.words stateB [(0x2000010C#32, 0x80FF017F#32)]).mem }
    let w := triggerState .store false 0x20000100#32
    (ExceptionReady l 3#32 0#32 ∧ TriggerFires l .load (l.reg 6#5 + (0xC#12 : BitVec 12).signExtend 32) ∧
      Loadable { l with trig := Triggers.reset } (l.reg 6#5 + (0xC#12 : BitVec 12).signExtend 32) .word
        [0x7F#8, 0x01#8, 0xFF#8, 0x80#8]) ∧
      TriggerFires w .store (w.reg 6#5 + (0#12 : BitVec 12).signExtend 32) ∧
        Storable { w with trig := Triggers.reset } (w.reg 6#5 + (0#12 : BitVec 12).signExtend 32) .word := by
  have hl : TriggerFires (triggerState .load true 0x20000107#32) .load 0x2000010C#32 :=
    witness_Breakpoints.2.2.1.2.2.2
  have hw : TriggerFires (triggerState .store false 0x20000100#32) .store 0x20000100#32 :=
    triggerState_fires (.inl ⟨rfl, rfl⟩) (by decide)
  exact ⟨⟨⟨⟨rfl, by decide, by decide, rfl⟩, .inl ⟨rfl, rfl, rfl⟩⟩, hl,
    ⟨by decide, .inl (by decide), by decide, by decide, rfl⟩⟩, hw, ⟨by decide, by decide, by decide, by decide⟩⟩

/-- 20 R140: a handler and a debug session start with the PMP as it is; the write that stood before them is settled. -/
theorem test_pmp_settled :
    let s : State := { stateB with pmpBefore := some Pmp.reset }
    goesTo (s.takeInterrupt 12#8) (fun t => t.pmpBefore == none) = true ∧ (s.enterDebug 3#3 s.pc).pmpBefore = none := by
  decide

/-- Interrupt 255 pending, enabled and allowed; the boundary lets it through. -/
def irqState : State :=
  { setup configB 0x20000002#32 [] [] [(0x305#12, 0x20000401#32), (0x300#12, 0x1808#32)] with
    env := [⟨[], false, false⟩]
    pfic := { Pfic.reset with en := irqBit 255#8, pend := irqBit 255#8 } }

theorem witness_InterruptEntry :
    irqState.env = ⟨[], false, false⟩ :: [] ∧ irqState.dm.ndmreset = false ∧ irqState.dm.haltreq = false ∧
      irqState.sleep = none ∧ irqState.pending 3#8 = false ∧
      (irqState.dbg.dcsr.step = true → irqState.dbg.dcsr.stepie = true) ∧ irqState.selectInterrupt = some 255#8 ∧
      TrapReady irqState 255#8 ∧ TargetIs irqState 255#8 0x200007FC#32 :=
  ⟨rfl, rfl, rfl, rfl, by decide, by decide, by decide +kernel, ⟨rfl, by decide, by decide, rfl⟩,
    .inr (.inl ⟨by decide, by decide, by decide⟩)⟩

/-- NMI pending; the gate closed; debug mode; the gate open; single-stepping without interrupts. -/
theorem witness_InterruptChoice :
    let n : State := { stateB with pfic := { Pfic.reset with pend := irqBit 2#8 } }
    (n.pfic.pend.getLsbD 2 = true ∧ (∀ e ∈ n.nest, e.actidx ≠ 2#8) ∧ n.level ≤ 2) ∧
      (stateB.pfic.pend.getLsbD 2 = false ∧ stateB.csr.mstatus.mie = false) ∧
      State.debugMode { irqState with debugMode := true } = true ∧
      (irqState.pfic.pend.getLsbD 2 = false ∧ irqState.csr.mstatus.mie = true ∧
        irqState.csr.intsyscr.gihwstknen = false ∧ irqState.debugMode = false) ∧
      (let d : Dcsr := { DebugCsrs.reset.dcsr with step := true }
       d.step = true ∧ d.stepie = false) := by
  decide

/-- Channel 3 names number 16: by the top byte on V3A, by PFIC_VTFIDR and the enable bit on V3B. -/
theorem witness_VtfTarget :
    let a : State :=
      { start configA 0#32 [] with pfic := { Pfic.reset with vtfAddr := #v[0#32, 0#32, 0#32, 0x10000200#32] } }
    let b : State :=
      { start configB 0#32 [] with
        pfic := { Pfic.reset with vtfAddr := #v[0#32, 0#32, 0#32, 0x20000401#32], vtfId := #v[0#8, 0#8, 0#8, 16#8] } }
    (a.deviceQueue = [] ∧ a.level < 2 ∧ a.cfg.vtfRule = .programmable ∧ (16#8 : IrqNum).toNat ≥ 16) ∧
      (∀ j : Fin 4,
        ((if a.isV3A then a.pfic.vtfAddr[j].extractLsb' 24 8 = 16#8
          else a.pfic.vtfAddr[j].getLsbD 0 = true ∧ a.pfic.vtfId[j] = 16#8) ↔ j = 3)) ∧
      ((a.pfic.vtfBase ++ 0#4 ++ a.pfic.vtfAddr[(3 : Fin 4)].extractLsb' 0 24).setWidth 32 : Word).getLsbD 0 = false ∧
      (b.deviceQueue = [] ∧ b.level < 2 ∧ b.cfg.vtfRule = .programmable) ∧
      (∀ j : Fin 4,
        ((if b.isV3A then b.pfic.vtfAddr[j].extractLsb' 24 8 = 16#8
          else b.pfic.vtfAddr[j].getLsbD 0 = true ∧ b.pfic.vtfId[j] = 16#8) ↔ j = 3)) ∧
      ((b.pfic.vtfAddr[(3 : Fin 4)].extractLsb' 1 31 ++ 0#1).setWidth 32 : Word).getLsbD 0 = false := by
  decide

/-- A state with active traps, innermost first. -/
def nestState (c : Config) (n : List NestEntry) : State := { start c 0x20000000#32 [] with nest := n }

/-- An active trap of number 16. -/
def entry (stacked : Bool) : NestEntry := ⟨16#8, stacked, ⟨0#32, 0#32, 0#32, false, .user⟩⟩

/-- User mode; an odd `mepc`; the overflow level; hardware stacking without a frame; levels 0, 1 and 2 that return. -/
theorem witness_TrapReturn :
    (State.priv userB = .user ∧ ExceptionReady userB 2#32 0#32) ∧
      (stateB.priv = .machine ∧ stateB.deviceQueue = [] ∧ stateB.csr.mepc.getLsbD 0 = false ∧ stateB.level ≤ 2 ∧
        stateB.hpeEnabled = false) ∧
      (State.csr { stateB with csr := { stateB.csr with mepc := 1#32 } }).mepc.getLsbD 0 = true ∧
      (nestState configB [entry false, entry false, entry false]).level = 3 ∧
      ((nestState configA [entry false]).level ≤ 2 ∧ (nestState configA [entry false]).hpeEnabled = true ∧
        ∃ e rest, (nestState configA [entry false]).nest = e :: rest ∧ e.stacked = false) ∧
      ((nestState configA [entry true, entry true]).level ≤ 2 ∧
        ∀ e rest, (nestState configA [entry true, entry true]).nest = e :: rest → e.stacked = true) :=
  ⟨⟨rfl, ⟨rfl, by decide, by decide, rfl⟩, .inl ⟨rfl, rfl, rfl⟩⟩, ⟨rfl, rfl, by decide, by decide, by decide⟩, by decide,
    by decide, ⟨by decide, by decide, _, _, rfl, rfl⟩, by decide, fun e rest h => by cases h; rfl⟩

/-- V3A, hardware stacking on from reset: the `ecall`, then a handler that leaves 7 in every register. -/
theorem witness_HardwareStackRoundTrip :
    ∃ s t h : State, s.hpeEnabled = true ∧ ExceptionReady s (if s.priv = .user then 8#32 else 11#32) 0#32 ∧
      exec .ecall s = .next t ∧
      h = { t with regs := h.regs, pc := h.pc, mem := h.mem, stale := h.stale, unseen := h.unseen,
                   csr := { t.csr with mscratch := h.csr.mscratch, mepc := h.csr.mepc } } ∧
      h.csr.mepc.getLsbD 0 = false ∧ h.regs ≠ s.regs := by
  obtain ⟨t, ht, hp⟩ := goesTo_next (o := exec .ecall (start configA 0x20000000#32 []))
    (p := fun t => !t.csr.mepc.getLsbD 0) (by decide)
  refine ⟨start configA 0x20000000#32 [], t, { t with regs := Vector.replicate 32 7#32 }, by decide,
    ⟨⟨rfl, by decide, by decide, rfl⟩, .inl ⟨rfl, rfl, rfl⟩⟩, ht, rfl, by simpa using hp, ?_⟩
  intro h
  have h0 : (Vector.replicate 32 (7#32 : Word))[0] = (start configA 0x20000000#32 []).regs[0] :=
    congrArg (fun v : Vector Word 32 => v[0]) h
  revert h0
  decide

/-- Level 2 on V3A and on V3B, for `ecall`, an illegal instruction and NMI; level 3 on V3B. -/
theorem witness_OverflowState :
    (let s := nestState configA [entry true, entry true]
     s.deviceQueue = [] ∧ s.debugMode = false ∧ s.level = 2 ∧ s.isV3A = true) ∧
      ((Exc.illegal ≠ .loadAccess ∧ Exc.illegal ≠ .storeAccess) ∧
        (Exc.instrAccess ≠ .loadAccess ∧ Exc.instrAccess ≠ .storeAccess ∧
          (nestState configB [entry false, entry false]).csr.corecfgr.nmiIe = false)) ∧
      (let s := nestState configB [entry false, entry false]
       s.level = 2 ∧ s.isV3A = false ∧
        (s.vtfMatches (vectorOf s.isV3A 11#32) = [] ∧ TargetIs s (vectorOf s.isV3A 11#32) 0#32) ∧
        (s.vtfMatches (vectorOf s.isV3A Exc.illegal.code) = [] ∧ TargetIs s (vectorOf s.isV3A Exc.illegal.code) 0#32) ∧
        (s.vtfMatches 2#8 = [] ∧ TargetIs s 2#8 0#32)) ∧
      (let s := nestState configB [entry false, entry false, entry false]
       s.level = 3 ∧ s.isV3A = false ∧ s.priv = .machine ∧ s.csr.mepc.getLsbD 0 = false) :=
  ⟨by decide, by decide, ⟨by decide, by decide, ⟨by decide, .inl ⟨rfl, rfl, rfl⟩⟩, ⟨by decide, .inl ⟨rfl, rfl, rfl⟩⟩, by decide,
    .inl ⟨rfl, rfl, rfl⟩⟩, by decide⟩

/-- Nothing outstanding; and a write that a fence completes. -/
theorem witness_WaitAndFences :
    edges
      [(0x0000000F#32, 0x0000707F#32), (0x0000100F#32, 0x0000707F#32)] = true ∧ stateB.deviceQueue = [] ∧
      State.deviceQueue { stateB with deviceQueue := [⟨0xE000E100#32, .word, 0x1000#32⟩] } ≠ [] := by
  decide

/-! ### Sleep, the timer, the debug host -/

/-- Asleep as WFI or WFE; an interrupt pending and enabled with the gate closed, or open; an event. -/
def asleep (k : SleepKind) (mie ev : Bool) (n : BitVec 256) : State :=
  { start configB 0x20000000#32 [] with
    env := [⟨[], false, false⟩]
    sleep := some k
    eventPending := ev
    csr := { Csrs.reset with mstatus := ⟨mie, false, .user⟩ }
    pfic := { Pfic.reset with en := n, pend := n } }

theorem witness_SleepAndWake :
    (let s := asleep .wfi false false 0#256
     s.env = ⟨[], false, false⟩ :: [] ∧ s.sleep = some .wfi ∧ s.dm.ndmreset = false ∧ s.debugMode = false ∧
        s.dm.haltreq = false ∧ s.pending 3#8 = false ∧ s.pending 2#8 = false ∧ (∀ n : IrqNum, s.pending n = false)) ∧
      (let s := asleep .wfi false false (irqBit 255#8)
       s.pending 255#8 = true ∧ s.enabled 255#8 = true ∧ s.pfic.threshold = 0#8 ∧ s.pending 3#8 = false ∧
        s.selectInterrupt = none) ∧
      (let s := asleep .wfe true false (irqBit 12#8)
       s.pending 12#8 = true ∧ s.enabled 12#8 = true ∧ s.pending 3#8 = false ∧
        (s.dbg.dcsr.step = true → s.dbg.dcsr.stepie = true) ∧ s.selectInterrupt = some 12#8 ∧ TrapReady s 12#8 ∧
        TargetIs s 12#8 0#32) ∧
      (let s := asleep .wfe false true (irqBit 12#8)
       s.pending 12#8 = true ∧ s.enabled 12#8 = true ∧ s.eventPending = true ∧ s.sleep = some .wfe ∧
        s.pending 3#8 = false ∧ s.selectInterrupt = none) ∧
      (let s := asleep .wfe false true 0#256
       s.eventPending = true ∧ s.sleep = some .wfe ∧ s.selectInterrupt = none ∧ ∀ n : IrqNum, s.pending n = false) :=
  ⟨⟨rfl, rfl, rfl, rfl, rfl, by decide, by decide, fun n => by simp [asleep, State.pending]⟩,
    ⟨by decide, by decide, rfl, by decide, by decide⟩,
    ⟨by decide, by decide, by decide, by decide, by decide +kernel, ⟨rfl, by decide, by decide, rfl⟩, .inl ⟨rfl, rfl, rfl⟩⟩,
    ⟨by decide, by decide, rfl, rfl, by decide, by decide⟩, rfl, rfl, by decide, fun n => by simp [asleep, State.pending]⟩

/-- Stopped by STE and by debug mode; counting on V3A and on V3B. -/
theorem witness_SysTickTick :
    let on : SysTick := { SysTick.reset with ste := true, cnt := 0xFFFFFFFF#32, cntHi := 0xFFFFFFFF#32 }
    let a : State := { start configA 0#32 [] with stk := on }
    let b : State := { start configB 0#32 [] with stk := { on with mode := true, stre := true, cnt := 0#32 } }
    let d : State :=
      { a with debugMode := true, dbg := { DebugCsrs.reset with dcsr := { DebugCsrs.reset.dcsr with stoptime := true } } }
    a.dm.ndmreset = false ∧ stateB.stk.ste = false ∧ (d.debugMode = true ∧ d.dbg.dcsr.stoptime = true) ∧
      (¬(a.stk.ste = false ∨ (a.debugMode = true ∧ a.dbg.dcsr.stoptime = true)) ∧ a.isV3A = true) ∧
      (¬(b.stk.ste = false ∨ (b.debugMode = true ∧ b.dbg.dcsr.stoptime = true)) ∧ b.isV3A = false) := by
  decide

/-- A core with a debug host: asleep, at a word and at a breakpoint instruction that `dcsr` sends to debug mode, halted. -/
theorem witness_DebugControl :
    let c : Config := { configA with debuggerPresent := true }
    let r : State := { start c 0x20000000#32 [] with env := [⟨[.dmiWrite 0x10#7 0x80000001#32], false, false⟩] }
    let b : State :=
      { State.at r (.half 0x9002#16) with
        dbg := { DebugCsrs.reset with dcsr := { DebugCsrs.reset.dcsr with ebreakm := true } } }
    let h : State := { start c 0x20000000#32 [] with debugMode := true, dm := { DebugModule.reset with dmactive := true } }
    (r.cfg.debuggerPresent = true ∧ r.dm.ndmreset = false ∧
      r.env = ⟨[.dmiWrite 0x10#7 0x80000001#32], false, false⟩ :: [] ∧ r.debugMode = false ∧ r.sleep = none ∧
      r.triggered .fetch r.pc = .pass ∧ r.dbg.dcsr.ebreakm = false) ∧
      (State.pfic { r with sleep := some .wfi }).sleepdeep = false ∧
      (let t := triggerState .fetch false 0x20000000#32
       t.triggered .fetch t.pc = .fire) ∧
      (b.triggered .fetch b.pc = .pass ∧ FetchReady b (.half 0x9002#16) ∧ decode b.cfg (.half 0x9002#16) = .instr .cEbreak ∧
        b.priv = .machine ∧ b.dbg.dcsr.ebreakm = true) ∧
      (h.cfg.debuggerPresent = true ∧ h.dm.ndmreset = false ∧ h.debugMode = true ∧ h.dm.running = false ∧
        h.dbg.dpc.getLsbD 0 = false ∧ h.dm.dmactive = true ∧ h.dm.cmderr = 0#3) :=
  ⟨by decide, by decide, by decide,
    ⟨by decide, ⟨by decide, by decide, by decide, .inl (by decide), by decide, rfl, rfl⟩, by decide, by decide, by decide⟩,
    by decide⟩

/-- 10 R57: at a breakpoint instruction that `dcsr` sends to debug mode, a halt request enters it with cause 1. -/
theorem test_halt_at_breakpoint :
    goesTo
      (step
        { setup { configA with debuggerPresent := true } 0x20000000#32 [] [(0x20000000#32, 0x00100073#32)] [] with
          env := [⟨[.dmiWrite 0x10#7 0x80000001#32], false, false⟩]
          dbg := { DebugCsrs.reset with dcsr := { DebugCsrs.reset.dcsr with ebreakm := true } } })
      (fun t => t.debugMode && t.dbg.dcsr.cause == 1#3 && t.dbg.dpc == 0x20000000#32) = true := by
  decide

/-- 20 R107, 60 R521: the second parcel past the end of RAM is the instruction access fault at its own address. -/
theorem test_fetch_fault :
    goesTo (step (edgeState 0x20000FFE#32))
      (fun t => t.csr.mcause == 1#32 && t.csr.mtval == 0x20001000#32 && t.csr.mepc == 0x20000FFE#32) = true := by
  decide

/-- 20 R106: a split load over the end of RAM faults with the instruction's address. -/
theorem test_split_fault :
    (match exec (.lw 1#5 8#5 0xFFE#12) (edgeState 0x20000000#32) with
      | .fault (.loadAccess a) => a == 0x20000FFE#32
      | _ => false) = true := by
  decide

/-- 61 R634: an execute trigger with ACTION 0 takes the breakpoint exception with the pc in `mtval`. -/
theorem test_trigger :
    goesTo (step (triggerState .fetch true 0x20000007#32))
      (fun t => t.csr.mcause == 3#32 && t.csr.mtval == 0x20000000#32 && t.csr.mepc == 0x20000000#32) = true := by
  decide

/-- 92 D33: `sc.w` on a device register is refused without a reservation too. -/
theorem test_sc_device :
    (match exec (.scW 5#5 7#5 6#5 0#1 0#1) (start configA 0x20000000#32 [(6#5, 0xE000ED10#32)]) with
      | .refused (.atomicOnDevice a) => a == 0xE000ED10#32
      | _ => false) = true := by
  decide

/-! ### Reset and invariants -/

/-- The keyed store on V3A, with PFICRESET too, and the plain one on V3B. -/
theorem witness_SystemReset :
    let a := devState configA 0xE000E048#32 0xBEEF00C0#32
    let b := devState configB 0xE000ED10#32 0x80000000#32
    (DeviceReady a .store (a.reg 6#5 + (0#12 : BitVec 12).signExtend 32) .word ∧ a.dm.haltreq = false ∧ a.isV3A = true ∧
      a.reg 6#5 + (0#12 : BitVec 12).signExtend 32 = 0xE000E048#32 ∧ (a.reg 7#5).extractLsb' 16 16 = 0xBEEF#16 ∧
      (a.reg 7#5).getLsbD 7 = true) ∧
      (DeviceReady b .store (b.reg 6#5 + (0#12 : BitVec 12).signExtend 32) .word ∧ b.dm.haltreq = false ∧ b.isV3A = false ∧
        b.reg 6#5 + (0#12 : BitVec 12).signExtend 32 = 0xE000ED10#32 ∧ (b.reg 7#5).getLsbD 31 = true) :=
  ⟨⟨⟨rfl, by decide, by decide⟩, by decide, by decide, by decide, by decide, by decide⟩,
    ⟨rfl, by decide, by decide⟩, by decide, by decide, by decide, by decide⟩

/-- A state of the form, with code to run. -/
def nopState : State := codeState configA (.full 0x00000013#32)

theorem witness_StepKeepsStateForm : StateForm nopState ∧ ∃ t, step nopState = .next t := by
  obtain ⟨t, ht, -⟩ := goesTo_next (o := step nopState) (p := fun _ => true) (by decide)
  exact ⟨⟨by decide, ⟨by decide, by decide⟩, ⟨by decide, by decide⟩, by unfold PmpLegal; decide⟩, t, ht⟩

theorem witness_StepKeepsPcEven : PcEven nopState ∧ ∃ t, step nopState = .next t := by
  obtain ⟨t, ht, -⟩ := goesTo_next (o := step nopState) (p := fun _ => true) (by decide)
  exact ⟨⟨⟨by decide, by decide⟩, by decide⟩, t, ht⟩

/-- In user mode: an instruction that stays there, and one that leaves it by a trap; the two conditions on the window. -/
theorem witness_UserModeIsolation :
    let u := userB
    u.priv = .user ∧ u.debugMode = false ∧ (∃ t, exec (.addi 1#5 0#5 1#12) u = .next t ∧ t.priv = .user) ∧
      (∃ t, exec .ecall u = .next t ∧ t.priv = .machine) ∧ u.csr.corecfgr.ieRemapEn = false ∧
      lockedB.csr.intsyscr.lock = true := by
  refine ⟨rfl, rfl, ?_, ?_, by decide, by decide⟩
  · obtain ⟨t, ht, hp⟩ := goesTo_next (o := exec (.addi 1#5 0#5 1#12) userB)
      (p := fun t => t.priv == .user) (by decide)
    exact ⟨t, ht, by simpa using hp⟩
  · obtain ⟨t, ht, hp⟩ := goesTo_next (o := exec .ecall userB)
      (p := fun t => t.priv == .machine) (by decide)
    exact ⟨t, ht, by simpa using hp⟩

end Sys2Proof.Tests
end

section
/-! PROOFS. Which bytes a PMP region holds, mode by mode (20 R132), and the region that decides a byte (20 R135). -/

namespace Sys2Proof.Machine

/-! ### The fields of 20 R132 as numbers -/

/-- `y[31:2]` of a byte address is its number divided by 4. -/
theorem toNat_extractLsb'_wordIndex (y : Word) : (y.extractLsb' 2 30).toNat = y.toNat / 4 := by
  rw [BitVec.extractLsb'_toNat, Nat.shiftRight_eq_div_pow]
  omega

/-- `a[29:0]` of a `pmpaddr` register: the top two bits are dropped. -/
theorem toNat_extractLsb'_pmpaddr (a : Word) : (a.extractLsb' 0 30).toNat = a.toNat % 2 ^ 30 := by
  rw [BitVec.extractLsb'_toNat, Nat.shiftRight_zero]

/-- The number of consecutive 1 bits from bit 0 on is `lowestZero`. -/
theorem lowestZero_eq {a : Word} {k : Nat} (hk : k ≤ 32) (hones : ∀ j < k, a.getLsbD j = true)
    (hend : k = 32 ∨ a.getLsbD k = false) : lowestZero a = k := by
  unfold lowestZero
  rcases Nat.lt_or_eq_of_le hk with hlt | rfl
  · have hzero : a.getLsbD k = false := hend.resolve_left (Nat.ne_of_lt hlt)
    have hsome : (List.range 32).find? (fun i => !a.getLsbD i) = some k :=
      List.find?_range_eq_some.mpr ⟨by simp [hzero], List.mem_range.mpr hlt, fun j hj => by simp [hones j hj]⟩
    rw [hsome, Option.getD_some]
  · have hnone : (List.range 32).find? (fun i => !a.getLsbD i) = none :=
      List.find?_range_eq_none.mpr fun i hi => by simp [hones i hi]
    rw [hnone, Option.getD_none]

/-- The NAPOT comparison `y[31:k+3] = a[29:k+1]`, bit by bit: bit `m` of the two quotients is bit `m + k + 3` of the
address and bit `m + k + 1` of the register, both 0 past the top. -/
theorem napotBlock_iff (a y : Word) (k : Nat) :
    y.toNat / 2 ^ (k + 3) = a.toNat % 2 ^ 30 / 2 ^ (k + 1) ↔
      ∀ j, k + 3 ≤ j → j < 32 → y.getLsbD j = a.getLsbD (j - 2) := by
  have hy (m : Nat) : (y.toNat / 2 ^ (k + 3)).testBit m = y.getLsbD (m + (k + 3)) := by
    rw [Nat.testBit_div_two_pow, BitVec.testBit_toNat]
  have ha (m : Nat) :
      (a.toNat % 2 ^ 30 / 2 ^ (k + 1)).testBit m = (decide (m + (k + 1) < 30) && a.getLsbD (m + (k + 1))) := by
    rw [Nat.testBit_div_two_pow, Nat.testBit_mod_two_pow, BitVec.testBit_toNat]
  constructor
  · intro h j hlo hhi
    have hbit := congrArg (fun n => n.testBit (j - (k + 3))) h
    simp only [hy, ha] at hbit
    rwa [show j - (k + 3) + (k + 3) = j by omega, show j - (k + 3) + (k + 1) = j - 2 by omega,
      decide_eq_true (by omega), Bool.true_and] at hbit
  · intro h
    refine Nat.eq_of_testBit_eq fun m => ?_
    rw [hy, ha]
    by_cases hm : m + (k + 3) < 32
    · rw [h _ (by omega) hm, show m + (k + 3) - 2 = m + (k + 1) by omega, decide_eq_true (by omega), Bool.true_and]
    · rw [BitVec.getLsbD_of_ge _ _ (by omega), decide_eq_false (by omega), Bool.false_and]

/-! ### The bytes of a region, by its mode -/

section
variable {p : Pmp} {i : Fin 4} (y : Word)

theorem Pmp.contains_off (h : p.cfg[i].a = .off) : p.contains i y = false := by
  simp only [Pmp.contains, h]

theorem Pmp.contains_tor_zero (h : p.cfg[i].a = .tor) (hi : i.val = 0) :
    p.contains i y = true ↔ (y.extractLsb' 2 30).toNat < (p.addr[i].extractLsb' 0 30).toNat := by
  rw [toNat_extractLsb'_wordIndex, toNat_extractLsb'_pmpaddr]
  simp only [Pmp.contains, h, hi, ↓reduceDIte, Nat.zero_le, decide_true, Bool.true_and, decide_eq_true_eq]

theorem Pmp.contains_tor_succ (h : p.cfg[i].a = .tor) {j : Fin 4} (hj : j.val + 1 = i.val) :
    p.contains i y = true ↔
      (p.addr[j].extractLsb' 0 30).toNat ≤ (y.extractLsb' 2 30).toNat ∧
        (y.extractLsb' 2 30).toNat < (p.addr[i].extractLsb' 0 30).toNat := by
  have hi : i.val ≠ 0 := by omega
  have hpred : i.val - 1 = j.val := by omega
  rw [toNat_extractLsb'_wordIndex, toNat_extractLsb'_pmpaddr, toNat_extractLsb'_pmpaddr]
  simp only [Pmp.contains, h, hi, hpred, ↓reduceDIte, Bool.and_eq_true, decide_eq_true_eq]
  exact Iff.rfl

theorem Pmp.contains_na4 (h : p.cfg[i].a = .na4) :
    p.contains i y = true ↔ (y.extractLsb' 2 30).toNat = (p.addr[i].extractLsb' 0 30).toNat := by
  rw [toNat_extractLsb'_wordIndex, toNat_extractLsb'_pmpaddr]
  simp only [Pmp.contains, h, decide_eq_true_eq]

theorem Pmp.contains_napot (h : p.cfg[i].a = .napot) :
    p.contains i y = true ↔
      29 ≤ lowestZero p.addr[i] ∨
        ∀ j, lowestZero p.addr[i] + 3 ≤ j → j < 32 → y.getLsbD j = p.addr[i].getLsbD (j - 2) := by
  simp only [Pmp.contains, h, Bool.or_eq_true, decide_eq_true_eq, napotBlock_iff]

end

/-! ### The region that decides a byte -/

/-- The search of `Pmp.region` runs through the regions in rising order, so position `n` of its list is region `n`. -/
theorem Pmp.region_eq_some_iff {p : Pmp} {y : Word} {i : Fin 4} :
    p.region y = some i ↔ p.contains i y = true ∧ ∀ j : Fin 4, j < i → p.contains j y = false := by
  rw [Pmp.region, List.find?_eq_some_iff_getElem]
  refine and_congr_right fun _ => ⟨?_, fun hbelow => ?_⟩
  · rintro ⟨n, hn, rfl, hbelow⟩ j hj
    simpa using hbelow j.val (by simpa [Fin.lt_def] using hj)
  · exact ⟨i.val, by simp, by simp, fun j hj => by simpa using hbelow ⟨j, _⟩ hj⟩

theorem Pmp.region_eq_none_iff {p : Pmp} {y : Word} :
    p.region y = none ↔ ∀ j : Fin 4, p.contains j y = false := by
  simp [Pmp.region]

/-- Settles O41: one clause for each mode of 20 R132, then the lowest-numbered match of 20 R135. -/
theorem pmpRegionMatch : Obligations.PmpRegionMatch := by
  intro p i y
  refine ⟨Pmp.contains_off y, Pmp.contains_tor_zero y, fun h _ => Pmp.contains_tor_succ y h, Pmp.contains_na4 y, ?_,
    Pmp.region_eq_some_iff, Pmp.region_eq_none_iff⟩
  intro hmode k hk hones hend
  rw [Pmp.contains_napot y hmode, lowestZero_eq hk hones hend]

end Sys2Proof.Machine
end

section
/-! PROOFS. What a word or a parcel of a row decodes to, from the fields that the row's mask covers (30 R151, R154, R156), and
what an instruction does whose meaning is one of the shared operations. -/

namespace Sys2Proof.Machine

open Sys2Proof

/-! ### Words of a row, by the fields its mask covers -/

section
variable {s : State} {w pattern : Word} {i : Instr} {holds : Instr → Prop}

/-- A row that fixes the opcode: U and J forms. -/
theorem encodes_of_opcode
    (hd : decodeFields (funct7Of w) (rs2Of w) (rs1Of w) (funct3Of w) (rdOf w) (opcodeOf pattern) = some i) (he : holds i)
    (hk : 0xFFFFFFFF#32 &&& 0x0000007F#32 ≠ pattern := by decide) (hm : i.onMember s.cfg = true := by rfl) :
    Encodes s w pattern 0x0000007F#32 i holds := by
  refine encodes_of_row (fun h => ?_) hk hm he
  have hop : opcodeOf w = opcodeOf pattern := extract_of_mask h 0 7 (by decide)
  rw [decode32, hop, hd]

/-- A row that fixes the opcode and `funct3`: I, S and B forms. -/
theorem encodes_of_funct3
    (hd : decodeFields (funct7Of w) (rs2Of w) (rs1Of w) (funct3Of pattern) (rdOf w) (opcodeOf pattern) = some i) (he : holds i)
    (hk : 0xFFFFFFFF#32 &&& 0x0000707F#32 ≠ pattern := by decide) (hm : i.onMember s.cfg = true := by rfl) :
    Encodes s w pattern 0x0000707F#32 i holds := by
  refine encodes_of_row (fun h => ?_) hk hm he
  have hop : opcodeOf w = opcodeOf pattern := extract_of_mask h 0 7 (by decide)
  have hf3 : funct3Of w = funct3Of pattern := extract_of_mask h 12 3 (by decide)
  rw [decode32, hop, hf3, hd]

/-- A row that fixes the opcode, `funct3` and `funct7`: R forms and shifts by a constant. -/
theorem encodes_of_funct7
    (hd : decodeFields (funct7Of pattern) (rs2Of w) (rs1Of w) (funct3Of pattern) (rdOf w) (opcodeOf pattern) = some i)
    (he : holds i) (hk : 0xFFFFFFFF#32 &&& 0xFE00707F#32 ≠ pattern := by decide)
    (hm : i.onMember s.cfg = true := by rfl) : Encodes s w pattern 0xFE00707F#32 i holds := by
  refine encodes_of_row (fun h => ?_) hk hm he
  have hop : opcodeOf w = opcodeOf pattern := extract_of_mask h 0 7 (by decide)
  have hf3 : funct3Of w = funct3Of pattern := extract_of_mask h 12 3 (by decide)
  have hf7 : funct7Of w = funct7Of pattern := extract_of_mask h 25 7 (by decide)
  rw [decode32, hop, hf3, hf7, hd]

end

/-! ### Parcels of a row -/

/-- Zeros above a mask add no 1 bits. -/
theorem maskOnes_setWidth {n k : Nat} (m : BitVec n) (h : n ≤ k) : maskOnes (m.setWidth k) = maskOnes m := by
  obtain ⟨d, rfl⟩ := Nat.exists_eq_add_of_le h
  have hlow : ∀ j ∈ List.range n, (m.setWidth (n + d)).getLsbD j = m.getLsbD j := fun j hj => by
    rw [BitVec.getLsbD_setWidth, decide_eq_true (by have := List.mem_range.mp hj; omega), Bool.true_and]
  have hhigh : ((List.range d).map (n + ·)).filter (fun j => (m.setWidth (n + d)).getLsbD j) = [] := by
    simp [List.filter_eq_nil_iff]
  unfold maskOnes
  rw [List.range_add, List.filter_append, hhigh, List.append_nil, List.filter_congr hlow]

section
variable {s : State} {p pattern mask : Half} {i : Instr} {holds : Instr → Prop}

/-- A parcel of a row decodes to the row's instruction where no supplied row comes before it. -/
theorem encodes16_of_row (hd : p &&& mask = pattern → decode16 p = some i) (he : holds i)
    (hk : pattern ≠ 0x0000#16 := by decide) (hm : i.onMember s.cfg = true := by rfl)
    (hn : i.rowMask = mask.setWidth 32 := by rfl) : Encodes16 s p pattern mask i holds := by
  have hones : maskOnes i.rowMask = maskOnes mask := hn ▸ maskOnes_setWidth mask (by decide)
  refine fun h => ⟨fun hkeep => decode_half ?_ (hd h) hm ?_, he⟩
  · rintro rfl
    exact hk (h ▸ BitVec.zero_and)
  · exact hkeep.imp_right fun hall r hr hrm => hones ▸ (hall r hr hrm).le

/-- A parcel that no row of the table matches is no instruction where no row is supplied. -/
theorem reserved_of_row (hd : p &&& mask = pattern → decode16 p = none) : Reserved s p pattern mask := by
  intro h hx i hi
  have hrow : decodeRow s.cfg (.half p) = none := by
    simp [decodeRow, tableMatch, hd h, hx, decodeXw, RowMatch.denser]
  unfold decode at hi
  rw [hrow] at hi
  split at hi
  · cases hi
  · dsimp only at hi
    split at hi <;> cases hi

/-- A row of quadrant 0, 1 or 2 that fixes `funct3` and the quadrant: CJ and CB branch forms among them. -/
theorem decode16_of_funct3 (h : p &&& 0xE003#16 = pattern) :
    decode16 p =
      decodeFields16 (pattern.extractLsb' 13 3) (p.extractLsb' 12 1) (p.extractLsb' 10 2) (p.extractLsb' 7 3)
        (p.extractLsb' 5 2) (p.extractLsb' 2 3) (pattern.extractLsb' 0 2) := by
  rw [decode16, extract_of_mask h 13 3 (by decide), extract_of_mask h 0 2 (by decide)]

/-- A row that fixes all but bits 11 to 7: the register jumps, quadrant 2 with bits 6 to 2 zero. -/
theorem decode16_of_funct4 (h : p &&& 0xF07F#16 = pattern) :
    decode16 p =
      decodeFields16 (pattern.extractLsb' 13 3) (pattern.extractLsb' 12 1) (p.extractLsb' 10 2) (p.extractLsb' 7 3)
        (pattern.extractLsb' 5 2) (pattern.extractLsb' 2 3) (pattern.extractLsb' 0 2) := by
  rw [decode16, extract_of_mask h 13 3 (by decide), extract_of_mask h 12 1 (by decide), extract_of_mask h 5 2 (by decide),
    extract_of_mask h 2 3 (by decide), extract_of_mask h 0 2 (by decide)]

end

theorem reg5_bits (p : Half) : reg5 (p.extractLsb' 10 2) (p.extractLsb' 7 3) = p.extractLsb' 7 5 := by
  ext i h
  interval_cases i <;> simp [reg5, fieldAt]

theorem cimmJ_bits (p : Half) :
    cimmJ (p.extractLsb' 12 1) (p.extractLsb' 10 2) (p.extractLsb' 7 3) (p.extractLsb' 5 2) (p.extractLsb' 2 3) = bitsCJ p := by
  apply BitVec.eq_of_getLsbD_eq
  intro i h
  unfold bitsCJ
  simp only [BitVec.getLsbD_setWidth, BitVec.getLsbD_append]
  interval_cases i <;> simp [cimmJ, fieldAt]

theorem cimmB_bits (p : Half) :
    cimmB (p.extractLsb' 12 1) (p.extractLsb' 10 2) (p.extractLsb' 5 2) (p.extractLsb' 2 3) = bitsCB p := by
  apply BitVec.eq_of_getLsbD_eq
  intro i h
  unfold bitsCB
  simp only [BitVec.getLsbD_setWidth, BitVec.getLsbD_append]
  interval_cases i <;> simp [cimmB, fieldAt]

/-! ### From the shared operation to the effect -/

section
variable {i : Instr} {s : State}

theorem writes_of_writeBack {rd : Reg} {v n : Word} (h : exec i s = s.writeBack rd v n) : Writes i s rd v (s.pc + n) := by
  unfold Writes
  rw [h]
  exact s.writeBack_effect rd v n

theorem writes_of_jumpLink {rd : Reg} {target n : Word} (h : exec i s = s.jumpLink rd target n) :
    Writes i s rd (s.pc + n) target := by
  unfold Writes
  rw [h]
  exact s.jumpLink_effect rd target n

theorem onlyMovesTo_of_setPc {next : Word} (h : exec i s = .next (s.setPc next)) : OnlyMovesTo i s next :=
  ⟨s.setPc next, h, rfl, fun _ => rfl, fun _ => rfl, rfl⟩

/-- A branch whose test says `P` moves to its target if `P` holds and past itself if not. -/
theorem onlyMovesTo_of_branch {taken : Bool} {off n : Word} {P : Prop} [Decidable P] (h : exec i s = s.branch taken off n)
    (hp : taken = true ↔ P) : OnlyMovesTo i s (if P then s.pc + off else s.pc + n) := by
  apply onlyMovesTo_of_setPc
  simp only [h, s.branch_effect, hp, State.setPc]

end

/-! ### Comparisons and shift amounts as the spec writes them -/

theorem ltSigned_iff (a b : Word) : ltSigned a b = true ↔ a.toInt < b.toInt := decide_eq_true_iff

theorem ltUnsigned_iff (a b : Word) : ltUnsigned a b = true ↔ a.toNat < b.toNat := decide_eq_true_iff

theorem not_ltSigned_iff (a b : Word) : (!ltSigned a b) = true ↔ b.toInt ≤ a.toInt := by
  rw [Bool.not_eq_true', ← Bool.not_eq_true, ltSigned_iff, not_lt]

theorem not_ltUnsigned_iff (a b : Word) : (!ltUnsigned a b) = true ↔ b.toNat ≤ a.toNat := by
  rw [Bool.not_eq_true', ← Bool.not_eq_true, ltUnsigned_iff, not_lt]

theorem boolWord_ltSigned (a b : Word) : boolWord (ltSigned a b) = if a.toInt < b.toInt then 1#32 else 0#32 := by
  simp only [boolWord, ltSigned_iff]

theorem boolWord_ltUnsigned (a b : Word) : boolWord (ltUnsigned a b) = if a.toNat < b.toNat then 1#32 else 0#32 := by
  simp only [boolWord, ltUnsigned_iff]

/-- The low five bits of a register are its value modulo 32 (40 R230). -/
theorem toNat_low5 (x : Word) : (low5 x).toNat = x.toNat % 32 := by
  rw [low5, BitVec.extractLsb'_toNat, Nat.shiftRight_zero]

end Sys2Proof.Machine
end

section
/-! PROOFS. The arithmetic of RV32I, on immediates (40 R201, R202, R219 to R227) and on two registers (R228 to R237). -/

namespace Sys2Proof.Machine

open Sys2Proof

/-- Settles O1: one clause for each instruction. The mask fixes the opcode and, but for `lui` and `auipc`, `funct3` or both
functions; the immediate is the word's slice; the meaning is a result written back. -/
theorem immediateArithmetic : Obligations.ImmediateArithmetic := by
  intro s w
  refine ⟨?lui, ?auipc, ?addi, ?slti, ?sltiu, ?xori, ?ori, ?andi, ?slli, ?srli, ?srai⟩
  case lui =>
    refine encodes_of_opcode (by rw [← immU_bits]; rfl) (writes_of_writeBack ?_)
    rw [exec_lui, execLui, upperImm_bits]
  case auipc =>
    refine encodes_of_opcode (by rw [← immU_bits]; rfl) (writes_of_writeBack ?_)
    rw [exec_auipc, execAuipc, upperImm_bits]
  case addi => exact encodes_of_funct3 (by rw [← immI_bits]; rfl) (writes_of_writeBack (exec_addi ..))
  case slti =>
    refine encodes_of_funct3 (by rw [← immI_bits]; rfl) (writes_of_writeBack ?_)
    rw [exec_slti, execSlti, boolWord_ltSigned, simm]
  case sltiu =>
    refine encodes_of_funct3 (by rw [← immI_bits]; rfl) (writes_of_writeBack ?_)
    rw [exec_sltiu, execSltiu, boolWord_ltUnsigned, simm]
  case xori => exact encodes_of_funct3 (by rw [← immI_bits]; rfl) (writes_of_writeBack (exec_xori ..))
  case ori => exact encodes_of_funct3 (by rw [← immI_bits]; rfl) (writes_of_writeBack (exec_ori ..))
  case andi => exact encodes_of_funct3 (by rw [← immI_bits]; rfl) (writes_of_writeBack (exec_andi ..))
  case slli => exact encodes_of_funct7 rfl (writes_of_writeBack (exec_slli ..))
  case srli => exact encodes_of_funct7 rfl (writes_of_writeBack (exec_srli ..))
  case srai => exact encodes_of_funct7 rfl (writes_of_writeBack (exec_srai ..))

/-- Settles O2: one clause for each instruction. The mask fixes opcode and both functions; the shifts take the low five bits,
which are the amount modulo 32. -/
theorem registerArithmetic : Obligations.RegisterArithmetic := by
  intro s w
  refine ⟨?add, ?sub, ?sll, ?slt, ?sltu, ?xor, ?srl, ?sra, ?or, ?and⟩
  case add => exact encodes_of_funct7 rfl (writes_of_writeBack (exec_add ..))
  case sub => exact encodes_of_funct7 rfl (writes_of_writeBack (exec_sub ..))
  case sll =>
    refine encodes_of_funct7 rfl (writes_of_writeBack ?_)
    rw [exec_sll, execSll, shiftLeft, toNat_low5]
  case slt =>
    refine encodes_of_funct7 rfl (writes_of_writeBack ?_)
    rw [exec_slt, execSlt, boolWord_ltSigned]
  case sltu =>
    refine encodes_of_funct7 rfl (writes_of_writeBack ?_)
    rw [exec_sltu, execSltu, boolWord_ltUnsigned]
  case xor => exact encodes_of_funct7 rfl (writes_of_writeBack (exec_xor ..))
  case srl =>
    refine encodes_of_funct7 rfl (writes_of_writeBack ?_)
    rw [exec_srl, execSrl, shiftRight, toNat_low5]
  case sra =>
    refine encodes_of_funct7 rfl (writes_of_writeBack ?_)
    rw [exec_sra, execSra, shiftRightArith, toNat_low5]
  case or => exact encodes_of_funct7 rfl (writes_of_writeBack (exec_or ..))
  case and => exact encodes_of_funct7 rfl (writes_of_writeBack (exec_and ..))

end Sys2Proof.Machine
end

section
/-! PROOFS. The jumps (40 R203, R204; 44 R348, R359, R364, R367) and the branches (40 R205 to R210; 44 R360, R361). -/

namespace Sys2Proof.Machine

open Sys2Proof

/-! ### Parcels of the register jumps -/

/-- Bits 11 to 7 not zero name the register of `c.jr`. -/
theorem decode16_cJr {p : Half} (hr : p.extractLsb' 7 5 ≠ 0#5) (h : p &&& 0xF07F#16 = 0x8002#16) :
    decode16 p = some (.cJr (p.extractLsb' 7 5)) := by
  rw [decode16_of_funct4 h, ← reg5_bits]
  exact if_neg (by rwa [reg5_bits])

/-- Bits 11 to 7 not zero name the register of `c.jalr`. -/
theorem decode16_cJalr {p : Half} (hr : p.extractLsb' 7 5 ≠ 0#5) (h : p &&& 0xF07F#16 = 0x9002#16) :
    decode16 p = some (.cJalr (p.extractLsb' 7 5)) := by
  rw [decode16_of_funct4 h, ← reg5_bits]
  exact if_neg (by rwa [reg5_bits])

/-- Settles O13: `State.jumpLink` takes its target from the state before the link is written, so the target of `jalr` and
`c.jalr` is that of the old register. -/
theorem jumpsAndLinks : Obligations.JumpsAndLinks := by
  intro s w p
  refine ⟨?jal, ?jalr, ?cJal, ?cJ, ?cJr, ?reserved, ?cJalr⟩
  case jal => exact encodes_of_opcode (by rw [← immJ_bits]; rfl) (writes_of_jumpLink (exec_jal ..))
  case jalr => exact encodes_of_funct3 (by rw [← immI_bits]; rfl) (writes_of_jumpLink (exec_jalr ..))
  case cJal =>
    exact encodes16_of_row (fun h => by rw [decode16_of_funct3 h, ← cimmJ_bits]; rfl) (writes_of_jumpLink (exec_cJal ..))
  case cJ =>
    exact encodes16_of_row (fun h => by rw [decode16_of_funct3 h, ← cimmJ_bits]; rfl) (onlyMovesTo_of_setPc (exec_cJ ..))
  case cJr => exact fun hr => encodes16_of_row (decode16_cJr hr) (onlyMovesTo_of_setPc (exec_cJr ..))
  case reserved =>
    refine reserved_of_row fun h => ?_
    obtain rfl : p = 0x8002#16 := by rw [← h]; exact BitVec.and_allOnes.symm
    decide
  case cJalr => exact fun hr => encodes16_of_row (decode16_cJalr hr) (writes_of_jumpLink (exec_cJalr ..))

/-- Settles O14: each branch is `State.branch` on its comparison, named here by what it says of the operands. -/
theorem conditionalBranches : Obligations.ConditionalBranches := by
  intro s w p
  refine ⟨?beq, ?bne, ?blt, ?bge, ?bltu, ?bgeu, ?cBeqz, ?cBnez⟩
  case beq => exact encodes_of_funct3 (by rw [← immB_bits]; rfl) (onlyMovesTo_of_branch (exec_beq ..) beq_iff_eq)
  case bne => exact encodes_of_funct3 (by rw [← immB_bits]; rfl) (onlyMovesTo_of_branch (exec_bne ..) bne_iff_ne)
  case blt => exact encodes_of_funct3 (by rw [← immB_bits]; rfl) (onlyMovesTo_of_branch (exec_blt ..) (ltSigned_iff _ _))
  case bge => exact encodes_of_funct3 (by rw [← immB_bits]; rfl) (onlyMovesTo_of_branch (exec_bge ..) (not_ltSigned_iff _ _))
  case bltu => exact encodes_of_funct3 (by rw [← immB_bits]; rfl) (onlyMovesTo_of_branch (exec_bltu ..) (ltUnsigned_iff _ _))
  case bgeu =>
    exact encodes_of_funct3 (by rw [← immB_bits]; rfl) (onlyMovesTo_of_branch (exec_bgeu ..) (not_ltUnsigned_iff _ _))
  case cBeqz =>
    refine encodes16_of_row (fun h => by rw [decode16_of_funct3 h, ← cimmB_bits]; rfl) ?_
    rw [← creg_eq]
    exact onlyMovesTo_of_branch (exec_cBeqz ..) beq_iff_eq
  case cBnez =>
    refine encodes16_of_row (fun h => by rw [decode16_of_funct3 h, ← cimmB_bits]; rfl) ?_
    rw [← creg_eq]
    exact onlyMovesTo_of_branch (exec_cBnez ..) bne_iff_ne

end Sys2Proof.Machine
end

section
/-! PROOFS. A synchronous exception that can be taken is, and the environment call (40 R239). -/

namespace Sys2Proof.Machine

open Sys2Proof

/-- The vector number of an exception is that of its code (60 R503). -/
theorem Exc.vector_eq_vectorOf (v3a : Bool) (e : Exc) : e.vector v3a = vectorOf v3a e.code := by
  cases v3a
  · cases e <;> rfl
  · rfl

/-- Outside debug mode every exception but the three access faults is an entry to its trap (60 R501, R520). -/
theorem State.raise_eq_trapEntry {s : State} {e : Exc} (hd : s.debugMode = false)
    (he : e ∉ [Exc.loadAccess, .storeAccess, .instrAccess]) (info : Word) :
    s.raise e info = s.trapEntry (e.req s.isV3A info s.pc) := by
  unfold State.raise
  rw [hd]
  cases e
  case instrAccess | loadAccess | storeAccess => simp at he
  all_goals rfl

/-- An exception raised where its trap can be entered is taken, at the present pc. -/
theorem ExceptionReady.raise_taken {s : State} {e : Exc} {target : Word} (h : ExceptionReady s e.code target)
    (he : e ∉ [Exc.loadAccess, .storeAccess, .instrAccess]) (info : Word) :
    TakesException s (s.raise e info) e.code info target := by
  obtain ⟨hready, htarget⟩ := h
  rw [← e.vector_eq_vectorOf s.isV3A] at hready htarget
  obtain ⟨t, hentry, htaken, -⟩ := State.trapEntry_taken (t := e.req s.isV3A info s.pc) hready htarget
  exact ⟨t, (State.raise_eq_trapEntry hready.running he info).trans hentry, htaken⟩

/-- Settles O43, by the present mode, which chooses the exception that is raised. -/
theorem environmentCall : Obligations.EnvironmentCall := by
  intro s target
  refine ⟨decode_full (by decide) rfl rfl, fun h => ?_⟩
  rw [exec_ecall, execEcall]
  cases hp : s.priv with
  | user =>
    simp only [hp, if_true] at h ⊢
    exact h.raise_taken (e := .ecallU) (by decide) 0#32
  | machine =>
    simp only [hp, reduceCtorEq, if_false] at h ⊢
    exact h.raise_taken (e := .ecallM) (by decide) 0#32

end Sys2Proof.Machine
end

section
/-! PROOFS. The M extension: the products (42 R291 to R294), the divisions (R295 to R298) and their corner cases (R299). -/

namespace Sys2Proof.Machine

open Sys2Proof

/-! ### Products -/

/-- A product modulo 2^64 has the high word of the exact product, whatever the signs. -/
theorem extractHigh_ofInt (p : Int) : (BitVec.ofInt 64 p).extractLsb' 32 32 = highWord p := by
  apply BitVec.eq_of_toNat_eq
  rw [highWord, BitVec.extractLsb'_toNat, BitVec.toNat_ofInt, BitVec.toNat_ofInt, Nat.shiftRight_eq_div_pow]
  omega

/-- A product modulo 2^64 is the exact product modulo 2^32 in its low word. -/
theorem extractLow_ofInt (p : Int) : (BitVec.ofInt 64 p).extractLsb' 0 32 = BitVec.ofInt 32 p := by
  apply BitVec.eq_of_toNat_eq
  rw [BitVec.extractLsb'_toNat, BitVec.toNat_ofInt, BitVec.toNat_ofInt, Nat.shiftRight_zero]
  omega

theorem signExtend_eq_ofInt_toInt (a : Word) : a.signExtend 64 = BitVec.ofInt 64 a.toInt := rfl

theorem setWidth_eq_ofInt_toNat (a : Word) : a.setWidth 64 = BitVec.ofInt 64 a.toNat := by
  rw [BitVec.ofInt_natCast, BitVec.ofNat_toNat]

/-- The low word does not depend on the reading of the operands (42 R291). -/
theorem mulLow_eq_extract (a b : Word) : mulLow a b = (a.signExtend 64 * b.signExtend 64).extractLsb' 0 32 := by
  rw [signExtend_eq_ofInt_toInt, signExtend_eq_ofInt_toInt, ← BitVec.ofInt_mul, extractLow_ofInt, BitVec.ofInt_mul,
    BitVec.ofInt_toInt, BitVec.ofInt_toInt, mulLow]

theorem mulHigh_eq_extract (a b : Word) : mulHigh a b = (a.signExtend 64 * b.signExtend 64).extractLsb' 32 32 := by
  rw [signExtend_eq_ofInt_toInt, signExtend_eq_ofInt_toInt, ← BitVec.ofInt_mul, extractHigh_ofInt, mulHigh]

theorem mulHighSU_eq_extract (a b : Word) : mulHighSU a b = (a.signExtend 64 * b.setWidth 64).extractLsb' 32 32 := by
  rw [signExtend_eq_ofInt_toInt, setWidth_eq_ofInt_toNat, ← BitVec.ofInt_mul, extractHigh_ofInt, mulHighSU]

theorem mulHighU_eq_extract (a b : Word) : mulHighU a b = (a.setWidth 64 * b.setWidth 64).extractLsb' 32 32 := by
  rw [setWidth_eq_ofInt_toNat, setWidth_eq_ofInt_toNat, ← BitVec.ofInt_mul, extractHigh_ofInt, mulHighU]

/-- Settles O3: the mask fixes opcode and both functions; each product is a word of the exact product of the operands as
integers, which the extension to 64 bits keeps. -/
theorem multiplyProducts : Obligations.MultiplyProducts := by
  intro s w
  refine ⟨?mul, ?mulh, ?mulhsu, ?mulhu⟩
  case mul =>
    refine encodes_of_funct7 rfl (writes_of_writeBack ?_)
    rw [exec_mul, execMul, mulLow_eq_extract]
  case mulh =>
    refine encodes_of_funct7 rfl (writes_of_writeBack ?_)
    rw [exec_mulh, execMulh, mulHigh_eq_extract]
  case mulhsu =>
    refine encodes_of_funct7 rfl (writes_of_writeBack ?_)
    rw [exec_mulhsu, execMulhsu, mulHighSU_eq_extract]
  case mulhu =>
    refine encodes_of_funct7 rfl (writes_of_writeBack ?_)
    rw [exec_mulhu, execMulhu, mulHighU_eq_extract]

/-! ### Quotients and remainders -/

/-- Division toward zero by magnitudes and signs. Where the quotient is 0, so is the quotient of the magnitudes. -/
theorem tdiv_eq_sign_mul_natAbs_div (a b : Int) : a.tdiv b = a.sign * b.sign * ((a.natAbs / b.natAbs : Nat) : Int) := by
  rw [← Int.sign_mul_natAbs (a.tdiv b), Int.sign_tdiv, Int.natAbs_tdiv]
  split
  case isTrue h => rw [Nat.div_eq_of_lt h, Nat.cast_zero, mul_zero, zero_mul]
  case isFalse => rfl

/-- A word is 0 exactly if its signed value is. -/
theorem toInt_eq_zero_iff (b : Word) : b.toInt = 0 ↔ b = 0#32 := BitVec.toInt_inj (y := 0#32)

theorem toInt_eq_min_iff (a : Word) : a.toInt = -2 ^ 31 ↔ a = 0x80000000#32 := BitVec.toInt_inj (y := 0x80000000#32)

theorem toInt_eq_neg_one_iff (b : Word) : b.toInt = -1 ↔ b = 0xFFFFFFFF#32 := BitVec.toInt_inj (y := 0xFFFFFFFF#32)

theorem toNat_eq_zero_iff (b : Word) : b.toNat = 0 ↔ b = 0#32 := BitVec.toNat_inj (y := 0#32)

/-- Settles O4: the mask fixes opcode and both functions; the corner cases are told by the operands' values instead of their
bits, and the quotient toward zero by magnitudes and signs. -/
theorem divideValues : Obligations.DivideValues := by
  intro s w
  refine ⟨?div, ?divu, ?rem, ?remu⟩
  case div =>
    refine encodes_of_funct7 rfl (writes_of_writeBack ?_)
    simp only [exec_div, execDiv, divSigned, toInt_eq_zero_iff, toInt_eq_min_iff, toInt_eq_neg_one_iff,
      tdiv_eq_sign_mul_natAbs_div]
  case divu =>
    refine encodes_of_funct7 rfl (writes_of_writeBack ?_)
    simp only [exec_divu, execDivu, divUnsigned, toNat_eq_zero_iff]
  case rem =>
    refine encodes_of_funct7 rfl (writes_of_writeBack ?_)
    simp only [exec_rem, execRem, remSigned, toInt_eq_zero_iff, toInt_eq_min_iff, toInt_eq_neg_one_iff,
      tdiv_eq_sign_mul_natAbs_div]
  case remu =>
    refine encodes_of_funct7 rfl (writes_of_writeBack ?_)
    simp only [exec_remu, execRemu, remUnsigned, toNat_eq_zero_iff]

/-! ### Quotient and remainder together (42 R299) -/

/-- Whatever the quotient, the signed remainder makes up for it modulo 2^32. -/
theorem mul_ofInt_add_ofInt_sub (a b : Word) (q : Int) :
    b * BitVec.ofInt 32 q + BitVec.ofInt 32 (a.toInt - b.toInt * q) = a :=
  calc b * BitVec.ofInt 32 q + BitVec.ofInt 32 (a.toInt - b.toInt * q)
    _ = BitVec.ofInt 32 (b.toInt * q + (a.toInt - b.toInt * q)) := by
      rw [BitVec.ofInt_add, BitVec.ofInt_mul, BitVec.ofInt_toInt]
    _ = a := by rw [add_sub_cancel, BitVec.ofInt_toInt]

/-- By zero the dividend is the remainder, on overflow the quotient; else the remainder is what is left. -/
theorem mul_divSigned_add_remSigned (a b : Word) : b * divSigned a b + remSigned a b = a := by
  unfold divSigned remSigned
  split
  case isTrue hzero => rw [hzero, BitVec.zero_mul, BitVec.zero_add]
  case isFalse =>
    split
    case isTrue hover =>
      obtain ⟨rfl, rfl⟩ := hover
      rfl
    case isFalse => exact mul_ofInt_add_ofInt_sub a b _

/-- By zero the dividend is the remainder; else this is the division of naturals. -/
theorem mul_divUnsigned_add_remUnsigned (a b : Word) : b * divUnsigned a b + remUnsigned a b = a := by
  unfold divUnsigned remUnsigned
  split
  case isTrue hzero => rw [hzero, BitVec.zero_mul, BitVec.zero_add]
  case isFalse =>
    calc b * BitVec.ofNat 32 (a.toNat / b.toNat) + BitVec.ofNat 32 (a.toNat % b.toNat)
      _ = BitVec.ofNat 32 (b.toNat * (a.toNat / b.toNat) + a.toNat % b.toNat) := by
        rw [BitVec.ofNat_add, BitVec.ofNat_mul, BitVec.ofNat_toNat, BitVec.setWidth_eq]
      _ = a := by rw [Nat.div_add_mod, BitVec.ofNat_toNat, BitVec.setWidth_eq]

section
variable {a b : Word}

theorem divSigned_of_zero (hb : b = 0#32) : divSigned a b = 0xFFFFFFFF#32 := if_pos hb

theorem remSigned_of_zero (hb : b = 0#32) : remSigned a b = a := if_pos hb

theorem divUnsigned_of_zero (hb : b = 0#32) : divUnsigned a b = 0xFFFFFFFF#32 := if_pos hb

theorem remUnsigned_of_zero (hb : b = 0#32) : remUnsigned a b = a := if_pos hb

theorem divSigned_of_overflow (ha : a = 0x80000000#32) (hb : b = 0xFFFFFFFF#32) : divSigned a b = 0x80000000#32 := by
  subst ha hb
  decide

theorem remSigned_of_overflow (ha : a = 0x80000000#32) (hb : b = 0xFFFFFFFF#32) : remSigned a b = 0#32 := by
  subst ha hb
  decide

end

/-- An instruction that writes a register other than x0 leaves the result there. -/
theorem Writes.reads {i : Instr} {s : State} {rd : Reg} {v next : Word} (h : Writes i s rd v next) (hrd : rd ≠ 0#5) :
    ∃ t, exec i s = .next t ∧ t.reg rd = v ∧ SameButRegs s t := by
  obtain ⟨t, hexec, heffect⟩ := h
  exact ⟨t, hexec, heffect.result.trans (if_neg hrd), heffect.rest⟩

/-- Settles O5: each of the four leaves its value in `rd`, so the claims are those about the values. -/
theorem divideCorners : Obligations.DivideCorners := by
  intro s rd rs1 rs2 hrd a b
  obtain ⟨tq, hdiv, hq, keepq⟩ := (writes_of_writeBack (exec_div rd rs1 rs2 s)).reads hrd
  obtain ⟨tr, hrem, hr, keepr⟩ := (writes_of_writeBack (exec_rem rd rs1 rs2 s)).reads hrd
  obtain ⟨tqu, hdivu, hqu, keepqu⟩ := (writes_of_writeBack (exec_divu rd rs1 rs2 s)).reads hrd
  obtain ⟨tru, hremu, hru, keepru⟩ := (writes_of_writeBack (exec_remu rd rs1 rs2 s)).reads hrd
  refine ⟨tq, tr, tqu, tru, hdiv, hrem, hdivu, hremu, ?signed, ?unsigned, ?byZero, ?overflow, keepq, keepr, keepqu, keepru⟩
  case signed => rw [hq, hr, mul_divSigned_add_remSigned]
  case unsigned => rw [hqu, hru, mul_divUnsigned_add_remUnsigned]
  case byZero =>
    exact fun hb => ⟨hqu.trans (divUnsigned_of_zero hb), hru.trans (remUnsigned_of_zero hb),
      hq.trans (divSigned_of_zero hb), hr.trans (remSigned_of_zero hb)⟩
  case overflow =>
    exact fun ha hb => ⟨hq.trans (divSigned_of_overflow ha hb), hr.trans (remSigned_of_overflow ha hb)⟩

end Sys2Proof.Machine
end

section
/-! PROOFS. Compressed arithmetic: the immediate forms (44 R343, R346, R347, R349 to R351), the register forms and shifts
(R352 to R358, R362, R365, R368), and what their constraints reserve (30 R156, R158). -/

namespace Sys2Proof.Machine

open Sys2Proof

/-! ### Immediates and register fields as slices of the parcel -/

/-- The offset of `c.addi4spn` from its bits (30 R155): bits 10 to 7, 12 to 11, 5, 6, and two zeros. -/
def bitsAddi4spn (p : Half) : BitVec 10 :=
  (p.extractLsb' 7 4 ++ p.extractLsb' 11 2 ++ p.extractLsb' 5 1 ++ p.extractLsb' 6 1 ++ 0#2).setWidth 10

/-- The offset of `c.addi16sp` from its bits (30 R155): bits 12, 4 to 3, 5, 2, 6, and four zeros. -/
def bitsAddi16sp (p : Half) : BitVec 10 :=
  (p.extractLsb' 12 1 ++ p.extractLsb' 3 2 ++ p.extractLsb' 5 1 ++ p.extractLsb' 2 1 ++ p.extractLsb' 6 1 ++ 0#4).setWidth 10

theorem cimmAddi4spn_bits (p : Half) :
    cimmAddi4spn (p.extractLsb' 12 1) (p.extractLsb' 10 2) (p.extractLsb' 7 3) (p.extractLsb' 5 2) = bitsAddi4spn p := by
  apply BitVec.eq_of_getLsbD_eq
  intro i h
  unfold bitsAddi4spn
  simp only [BitVec.getLsbD_setWidth, BitVec.getLsbD_append]
  interval_cases i <;> simp [cimmAddi4spn, fieldAt]

theorem cimmAddi16sp_bits (p : Half) :
    cimmAddi16sp (p.extractLsb' 12 1) (p.extractLsb' 5 2) (p.extractLsb' 2 3) = bitsAddi16sp p := by
  apply BitVec.eq_of_getLsbD_eq
  intro i h
  unfold bitsAddi16sp
  simp only [BitVec.getLsbD_setWidth, BitVec.getLsbD_append]
  interval_cases i <;> simp [cimmAddi16sp, fieldAt]

theorem cimm6_bits (p : Half) : cimm6 (p.extractLsb' 12 1) (p.extractLsb' 5 2) (p.extractLsb' 2 3) = bits6 p := by
  apply BitVec.eq_of_getLsbD_eq
  intro i h
  unfold bits6
  simp only [BitVec.getLsbD_setWidth, BitVec.getLsbD_append]
  interval_cases i <;> simp [cimm6, fieldAt]

/-- Bits 6 to 2 as one field: `rs2`, or a shift amount. -/
theorem reg5_bits_low (p : Half) : reg5 (p.extractLsb' 5 2) (p.extractLsb' 2 3) = p.extractLsb' 2 5 := by
  ext i h
  interval_cases i <;> simp [reg5, fieldAt]

theorem cimmAddi16sp_eq_zero_iff (b12 : BitVec 1) (mid : BitVec 2) (rb : BitVec 3) :
    cimmAddi16sp b12 mid rb = 0#10 ↔ cimm6 b12 mid rb = 0#6 := by
  revert b12 mid rb
  decide

/-- `c.addi16sp` and `c.lui` put the same six bits in their immediates, so the one is 0 exactly if the other is. -/
theorem bitsAddi16sp_eq_zero_iff {p : Half} : bitsAddi16sp p = 0#10 ↔ bits6 p = 0#6 := by
  rw [← cimmAddi16sp_bits, ← cimm6_bits, cimmAddi16sp_eq_zero_iff]

/-- The value of `c.lui`: the field above twelve zeros. -/
theorem cLuiImm_eq_append (imm : BitVec 6) : cLuiImm imm = (imm ++ 0#12).signExtend 32 := by
  have hfield : fieldAt 18 imm 12 = imm ++ 0#12 := by
    apply BitVec.eq_of_getLsbD_eq
    intro i h
    simp only [BitVec.getLsbD_append]
    interval_cases i <;> simp [fieldAt]
  rw [cLuiImm, hfield]

/-! ### Parcels of a row, by the fields its mask covers -/

section
variable {s : State} {p pattern mask : Half} {i : Instr} {holds : Instr → Prop}

/-- A parcel other than the defined illegal one, of a row whose pattern may be zero: `c.addi4spn` shares its pattern with
0x0000 (30 R157). -/
theorem encodes16_of_ne_zero (hp : p ≠ 0x0000#16) (hd : p &&& mask = pattern → decode16 p = some i) (he : holds i)
    (hm : i.onMember s.cfg = true := by rfl) (hn : i.rowMask = mask.setWidth 32 := by rfl) :
    Encodes16 s p pattern mask i holds := by
  have hones : maskOnes i.rowMask = maskOnes mask := hn ▸ maskOnes_setWidth mask (by decide)
  exact fun h => ⟨fun hkeep => decode_half hp (hd h) hm
    (hkeep.imp_right fun hall r hr hrm => hones ▸ (hall r hr hrm).le), he⟩

/-- A row that fixes `funct3`, bits 11 to 7 and the quadrant: `c.nop`, `c.addi16sp`. -/
theorem decode16_of_funct3_rd (h : p &&& 0xEF83#16 = pattern) :
    decode16 p =
      decodeFields16 (pattern.extractLsb' 13 3) (p.extractLsb' 12 1) (pattern.extractLsb' 10 2) (pattern.extractLsb' 7 3)
        (p.extractLsb' 5 2) (p.extractLsb' 2 3) (pattern.extractLsb' 0 2) := by
  rw [decode16, extract_of_mask h 13 3 (by decide), extract_of_mask h 10 2 (by decide), extract_of_mask h 7 3 (by decide),
    extract_of_mask h 0 2 (by decide)]

/-- A row that fixes `funct3`, bits 11 to 10 and the quadrant: `c.andi`. -/
theorem decode16_of_funct3_funct2 (h : p &&& 0xEC03#16 = pattern) :
    decode16 p =
      decodeFields16 (pattern.extractLsb' 13 3) (p.extractLsb' 12 1) (pattern.extractLsb' 10 2) (p.extractLsb' 7 3)
        (p.extractLsb' 5 2) (p.extractLsb' 2 3) (pattern.extractLsb' 0 2) := by
  rw [decode16, extract_of_mask h 13 3 (by decide), extract_of_mask h 10 2 (by decide), extract_of_mask h 0 2 (by decide)]

/-- A row that fixes bit 12 besides: the right shifts, and their reserved forms. -/
theorem decode16_of_funct4_funct2 (h : p &&& 0xFC03#16 = pattern) :
    decode16 p =
      decodeFields16 (pattern.extractLsb' 13 3) (pattern.extractLsb' 12 1) (pattern.extractLsb' 10 2) (p.extractLsb' 7 3)
        (p.extractLsb' 5 2) (p.extractLsb' 2 3) (pattern.extractLsb' 0 2) := by
  rw [decode16, extract_of_mask h 13 3 (by decide), extract_of_mask h 12 1 (by decide), extract_of_mask h 10 2 (by decide),
    extract_of_mask h 0 2 (by decide)]

/-- A row that fixes all but two 3-bit registers: the CA forms. -/
theorem decode16_of_funct6 (h : p &&& 0xFC63#16 = pattern) :
    decode16 p =
      decodeFields16 (pattern.extractLsb' 13 3) (pattern.extractLsb' 12 1) (pattern.extractLsb' 10 2) (p.extractLsb' 7 3)
        (pattern.extractLsb' 5 2) (p.extractLsb' 2 3) (pattern.extractLsb' 0 2) := by
  rw [decode16, extract_of_mask h 13 3 (by decide), extract_of_mask h 12 1 (by decide), extract_of_mask h 10 2 (by decide),
    extract_of_mask h 5 2 (by decide), extract_of_mask h 0 2 (by decide)]

/-- A row that fixes `funct3`, bit 12 and the quadrant: the CR forms on two registers, and `c.slli`. -/
theorem decode16_of_cr (h : p &&& 0xF003#16 = pattern) :
    decode16 p =
      decodeFields16 (pattern.extractLsb' 13 3) (pattern.extractLsb' 12 1) (p.extractLsb' 10 2) (p.extractLsb' 7 3)
        (p.extractLsb' 5 2) (p.extractLsb' 2 3) (pattern.extractLsb' 0 2) := by
  rw [decode16, extract_of_mask h 13 3 (by decide), extract_of_mask h 12 1 (by decide), extract_of_mask h 0 2 (by decide)]

end

/-! ### Immediate forms with a constraint -/

section
variable {p : Half}

/-- Quadrant 0 with `funct3` 0 is `c.addi4spn` or, with offset 0, nothing. -/
theorem decode16_addi4spn_row (h : p &&& 0xE003#16 = 0x0000#16) :
    decode16 p =
      if bitsAddi4spn p = 0#10 then none else some (.cAddi4spn (p.extractLsb' 2 3) (bitsAddi4spn p)) := by
  rw [decode16_of_funct3 h, ← cimmAddi4spn_bits]
  rfl

/-- `c.addi` and `c.nop` share a row, told apart by `rd`. -/
theorem decode16_addi_row (h : p &&& 0xE003#16 = 0x0001#16) :
    decode16 p =
      if p.extractLsb' 7 5 = 0#5 then some (.cNop (bits6 p)) else some (.cAddi (p.extractLsb' 7 5) (bits6 p)) := by
  rw [decode16_of_funct3 h, ← cimm6_bits, ← reg5_bits]
  rfl

/-- Bits 11 to 7 at 2 make `c.addi16sp` or, with offset 0, nothing. -/
theorem decode16_addi16sp_row (h : p &&& 0xEF83#16 = 0x6101#16) :
    decode16 p = if bitsAddi16sp p = 0#10 then none else some (.cAddi16sp (bitsAddi16sp p)) := by
  rw [decode16_of_funct3_rd h, ← cimmAddi16sp_bits]
  rfl

/-- `c.addi16sp` and `c.lui` share a row, told apart by `rd`. -/
theorem decode16_lui_row (h : p &&& 0xE003#16 = 0x6001#16) :
    decode16 p =
      if p.extractLsb' 7 5 = 2#5 then if bitsAddi16sp p = 0#10 then none else some (.cAddi16sp (bitsAddi16sp p))
      else if bits6 p = 0#6 then none
      else some (.cLui (p.extractLsb' 7 5) (bits6 p)) := by
  rw [decode16_of_funct3 h, ← cimmAddi16sp_bits, ← cimm6_bits, ← reg5_bits]
  rfl

/-- With immediate 0 the row is nothing, whatever `rd`. -/
theorem decode16_lui_row_of_zero (himm : bits6 p = 0#6) (h : p &&& 0xE003#16 = 0x6001#16) : decode16 p = none := by
  rw [decode16_lui_row h, if_pos (bitsAddi16sp_eq_zero_iff.mpr himm), if_pos himm, ite_self]

/-- Settles O11: four of the rows are one instruction under a constraint on an immediate or on `rd`, which their decoding
tests; `c.nop` and `c.li` have none. -/
theorem compressedImmediates : Obligations.CompressedImmediates := by
  intro s p
  refine ⟨?cAddi4spn, ?cNop, ?cAddi, ?cLi, ?cAddi16sp, ?cLui, ?reservedAddi4spn, ?reservedAddi16sp, ?reservedLui⟩
  case cAddi4spn =>
    intro hspn
    rw [← creg_eq]
    refine encodes16_of_ne_zero ?_ (fun h => (decode16_addi4spn_row h).trans (if_neg hspn))
      (writes_of_writeBack (exec_cAddi4spn ..))
    rintro rfl
    exact hspn rfl
  case cNop =>
    exact encodes16_of_row (fun h => by rw [decode16_of_funct3_rd h, ← cimm6_bits]; rfl)
      (onlyMovesTo_of_setPc (exec_cNop ..))
  case cAddi =>
    exact fun hrd => encodes16_of_row (fun h => (decode16_addi_row h).trans (if_neg hrd))
      (writes_of_writeBack (exec_cAddi ..))
  case cLi =>
    exact encodes16_of_row (fun h => by rw [decode16_of_funct3 h, ← cimm6_bits, ← reg5_bits]; rfl)
      (writes_of_writeBack (exec_cLi ..))
  case cAddi16sp =>
    exact fun hspi => encodes16_of_row (fun h => (decode16_addi16sp_row h).trans (if_neg hspi))
      (writes_of_writeBack (exec_cAddi16sp ..))
  case cLui =>
    intro hrd himm
    refine encodes16_of_row (fun h => by rw [decode16_lui_row h, if_neg hrd, if_neg himm]) (writes_of_writeBack ?_)
    rw [exec_cLui, execCLui, cLuiImm_eq_append]
  case reservedAddi4spn => exact fun hspn => reserved_of_row fun h => (decode16_addi4spn_row h).trans (if_pos hspn)
  case reservedAddi16sp => exact fun hspi => reserved_of_row fun h => (decode16_addi16sp_row h).trans (if_pos hspi)
  case reservedLui => exact fun himm => reserved_of_row (decode16_lui_row_of_zero himm)

/-! ### Register forms -/

/-- Bits 6 to 2 not zero name the source of `c.mv`. -/
theorem decode16_cMv (hr : p.extractLsb' 2 5 ≠ 0#5) (h : p &&& 0xF003#16 = 0x8002#16) :
    decode16 p = some (.cMv (p.extractLsb' 7 5) (p.extractLsb' 2 5)) := by
  rw [decode16_of_cr h, ← reg5_bits, ← reg5_bits_low]
  exact if_neg (by rwa [reg5_bits_low])

/-- Bits 6 to 2 not zero name the second source of `c.add`. -/
theorem decode16_cAdd (hr : p.extractLsb' 2 5 ≠ 0#5) (h : p &&& 0xF003#16 = 0x9002#16) :
    decode16 p = some (.cAdd (p.extractLsb' 7 5) (p.extractLsb' 2 5)) := by
  rw [decode16_of_cr h, ← reg5_bits, ← reg5_bits_low]
  exact if_neg (by rwa [reg5_bits_low])

end

/-- Settles O12: one clause for each instruction, whose mask fixes all but its operands; a shift row with bit 12 set is met by
none. -/
theorem compressedRegisters : Obligations.CompressedRegisters := by
  intro s p
  simp only [← creg_eq]
  refine ⟨?cSrli, ?cSrai, ?cAndi, ?cSub, ?cXor, ?cOr, ?cAnd, ?cSlli, ?cMv, ?cAdd, ?reservedSrli, ?reservedSrai, ?reservedSlli⟩
  case cSrli =>
    exact encodes16_of_row (fun h => by rw [decode16_of_funct4_funct2 h, ← reg5_bits_low]; rfl)
      (writes_of_writeBack (exec_cSrli ..))
  case cSrai =>
    exact encodes16_of_row (fun h => by rw [decode16_of_funct4_funct2 h, ← reg5_bits_low]; rfl)
      (writes_of_writeBack (exec_cSrai ..))
  case cAndi =>
    exact encodes16_of_row (fun h => by rw [decode16_of_funct3_funct2 h, ← cimm6_bits]; rfl)
      (writes_of_writeBack (exec_cAndi ..))
  case cSub => exact encodes16_of_row decode16_of_funct6 (writes_of_writeBack (exec_cSub ..))
  case cXor => exact encodes16_of_row decode16_of_funct6 (writes_of_writeBack (exec_cXor ..))
  case cOr => exact encodes16_of_row decode16_of_funct6 (writes_of_writeBack (exec_cOr ..))
  case cAnd => exact encodes16_of_row decode16_of_funct6 (writes_of_writeBack (exec_cAnd ..))
  case cSlli =>
    exact encodes16_of_row (fun h => by rw [decode16_of_cr h, ← reg5_bits, ← reg5_bits_low]; rfl)
      (writes_of_writeBack (exec_cSlli ..))
  case cMv => exact fun hr => encodes16_of_row (decode16_cMv hr) (writes_of_writeBack (exec_cMv ..))
  case cAdd => exact fun hr => encodes16_of_row (decode16_cAdd hr) (writes_of_writeBack (exec_cAdd ..))
  case reservedSrli => exact reserved_of_row decode16_of_funct4_funct2
  case reservedSrai => exact reserved_of_row decode16_of_funct4_funct2
  case reservedSlli => exact reserved_of_row decode16_of_cr

end Sys2Proof.Machine
end

section
/-! PROOFS. The B extension: Zba and the logic and minimum instructions of Zbb (45 R391 to R396, R400 to R403), the counts
(R397 to R399), the bytes (R404 to R406, R410, R411), the rotates (R407 to R409) and the single bits of Zbs (R412 to
R419). -/

namespace Sys2Proof.Machine

open Sys2Proof

/-- Settles O6: one clause for each instruction, whose mask fixes opcode and both functions. The operands of the minimum and
maximum are ordered by the comparisons of 00 R10. -/
theorem shiftAddLogicMinMax : Obligations.ShiftAddLogicMinMax := by
  intro s w
  refine ⟨?sh1add, ?sh2add, ?sh3add, ?andn, ?orn, ?xnor, ?max, ?maxu, ?min, ?minu⟩
  case sh1add => exact fun hzba => encodes_of_funct7 rfl (writes_of_writeBack (exec_sh1add ..)) (hm := hzba)
  case sh2add => exact fun hzba => encodes_of_funct7 rfl (writes_of_writeBack (exec_sh2add ..)) (hm := hzba)
  case sh3add => exact fun hzba => encodes_of_funct7 rfl (writes_of_writeBack (exec_sh3add ..)) (hm := hzba)
  case andn => exact fun hzbb => encodes_of_funct7 rfl (writes_of_writeBack (exec_andn ..)) (hm := hzbb)
  case orn => exact fun hzbb => encodes_of_funct7 rfl (writes_of_writeBack (exec_orn ..)) (hm := hzbb)
  case xnor => exact fun hzbb => encodes_of_funct7 rfl (writes_of_writeBack (exec_xnor ..)) (hm := hzbb)
  case max =>
    refine fun hzbb => encodes_of_funct7 rfl (writes_of_writeBack ?_) (hm := hzbb)
    simp only [exec_max, execMax, maxSigned, ltSigned_iff]
  case maxu =>
    refine fun hzbb => encodes_of_funct7 rfl (writes_of_writeBack ?_) (hm := hzbb)
    simp only [exec_maxu, execMaxu, maxUnsigned, ltUnsigned_iff]
  case min =>
    refine fun hzbb => encodes_of_funct7 rfl (writes_of_writeBack ?_) (hm := hzbb)
    simp only [exec_min, execMin, minSigned, ltSigned_iff]
  case minu =>
    refine fun hzbb => encodes_of_funct7 rfl (writes_of_writeBack ?_) (hm := hzbb)
    simp only [exec_minu, execMinu, minUnsigned, ltUnsigned_iff]

/-! ### Rows with one operand register -/

/-- A row that fixes the opcode, `funct3` and bits 31 to 20: the instructions of Zbb on one register. -/
theorem encodes_of_funct12 {s : State} {w pattern : Word} {i : Instr} {holds : Instr → Prop}
    (hd : decodeFields (funct7Of pattern) (rs2Of pattern) (rs1Of w) (funct3Of pattern) (rdOf w) (opcodeOf pattern) = some i)
    (he : holds i) (hm : i.onMember s.cfg = true) (hk : 0xFFFFFFFF#32 &&& 0xFFF0707F#32 ≠ pattern := by decide) :
    Encodes s w pattern 0xFFF0707F#32 i holds := by
  refine encodes_of_row (fun h => ?_) hk hm he
  have hop : opcodeOf w = opcodeOf pattern := extract_of_mask h 0 7 (by decide)
  have hf3 : funct3Of w = funct3Of pattern := extract_of_mask h 12 3 (by decide)
  have hrs2 : rs2Of w = rs2Of pattern := extract_of_mask h 20 5 (by decide)
  have hf7 : funct7Of w = funct7Of pattern := extract_of_mask h 25 7 (by decide)
  rw [decode32, hop, hf3, hrs2, hf7, hd]

/-! ### Counts -/

/-- A search through rising positions with its bound as default answers the number of positions before the first hit. -/
theorem find?_range_getD_eq {p : Nat → Bool} {m n : Nat} (hn : n ≤ m) (hbefore : ∀ j < n, p j = false)
    (hend : n = m ∨ p n = true) : ((List.range m).find? p).getD m = n := by
  rcases hn.lt_or_eq with hlt | rfl
  · have hsome : (List.range m).find? p = some n :=
      List.find?_range_eq_some.mpr
        ⟨hend.resolve_left hlt.ne, List.mem_range.mpr hlt, fun j hj => by rw [hbefore j hj, Bool.not_false]⟩
    rw [hsome, Option.getD_some]
  · have hnone : (List.range n).find? p = none :=
      List.find?_range_eq_none.mpr fun j hj => by rw [hbefore j hj, Bool.not_false]
    rw [hnone, Option.getD_none]

section
variable {a : Word} {n : Nat}

theorem leadingZeros_eq (hn : n ≤ 32) (hzeros : ∀ j < n, a.getLsbD (31 - j) = false)
    (hend : n = 32 ∨ a.getLsbD (31 - n) = true) : leadingZeros a = n :=
  find?_range_getD_eq hn hzeros hend

theorem trailingZeros_eq (hn : n ≤ 32) (hzeros : ∀ j < n, a.getLsbD j = false) (hend : n = 32 ∨ a.getLsbD n = true) :
    trailingZeros a = n :=
  find?_range_getD_eq hn hzeros hend

end

/-- Counting along the positions is the size of the set of positions that hold a 1. -/
theorem popCount_eq_card (a : Word) :
    popCount a = (Finset.univ.filter (fun j : Fin 32 => a.getLsbD j.val = true)).card :=
  calc popCount a
    _ = Nat.count (fun j => a.getLsbD j = true) 32 := by simp only [popCount, Nat.count, Bool.decide_eq_true]
    _ = ∑ j ∈ Finset.range 32, if a.getLsbD j = true then 1 else 0 := by
      rw [Nat.count_eq_card_filter_range, Finset.card_filter]
    _ = (Finset.univ.filter (fun j : Fin 32 => a.getLsbD j.val = true)).card := by
      rw [Finset.sum_range, Finset.card_filter]

/-- Settles O7: each count is the position at which a search for a 1 bit ends, or the number of positions that hold one. -/
theorem bitCounts : Obligations.BitCounts := by
  intro s w hzbb
  refine ⟨?clz, ?ctz, ?cpop⟩
  case clz =>
    intro n hn hzeros hend
    refine encodes_of_funct12 rfl (writes_of_writeBack ?_) hzbb
    rw [exec_clz, execClz, leadingZeros_eq hn hzeros hend]
  case ctz =>
    intro n hn hzeros hend
    refine encodes_of_funct12 rfl (writes_of_writeBack ?_) hzbb
    rw [exec_ctz, execCtz, trailingZeros_eq hn hzeros hend]
  case cpop =>
    refine encodes_of_funct12 rfl (writes_of_writeBack ?_) hzbb
    rw [exec_cpop, execCpop, popCount_eq_card]

/-! ### Bytes -/

theorem extractHalf_eq_append (a : Word) : a.extractLsb' 0 16 = a.extractLsb' 8 8 ++ a.extractLsb' 0 8 :=
  (BitVec.extractLsb'_append_extractLsb'_eq_extractLsb' (start₁ := 0) (len₁ := 8) (len₂ := 8) rfl).symm

theorem orCombine_eq_append (a : Word) :
    orCombine a =
      (orByte (a.extractLsb' 24 8) ++ orByte (a.extractLsb' 16 8) ++ orByte (a.extractLsb' 8 8) ++
        orByte (a.extractLsb' 0 8)).setWidth 32 :=
  assemble_word ..

theorem byteReverse_eq_append (a : Word) :
    byteReverse a =
      (a.extractLsb' 0 8 ++ a.extractLsb' 8 8 ++ a.extractLsb' 16 8 ++ a.extractLsb' 24 8).setWidth 32 :=
  assemble_word ..

/-- Settles O8: a halfword is its two bytes; `orc.b` and `rev8` put four bytes together, each made full or in reverse. -/
theorem extendAndBytes : Obligations.ExtendAndBytes := by
  intro s w hzbb
  refine ⟨?sextB, ?sextH, ?zextH, ?orcB, ?rev8⟩
  case sextB => exact encodes_of_funct12 rfl (writes_of_writeBack (exec_sextB ..)) hzbb
  case sextH =>
    refine encodes_of_funct12 rfl (writes_of_writeBack ?_) hzbb
    rw [exec_sextH, execSextH, sext16, extractHalf_eq_append]
  case zextH =>
    refine encodes_of_funct12 rfl (writes_of_writeBack ?_) hzbb
    rw [exec_zextH, execZextH, zext16, extractHalf_eq_append]
  case orcB =>
    refine encodes_of_funct12 rfl (writes_of_writeBack ?_) hzbb
    rw [exec_orcB, execOrcB, orCombine_eq_append]
    rfl
  case rev8 =>
    refine encodes_of_funct12 rfl (writes_of_writeBack ?_) hzbb
    rw [exec_rev8, execRev8, byteReverse_eq_append]

/-! ### Rotates -/

/-- The amount of the second shift makes the two up to a whole turn, or to none. -/
theorem toNat_rotateBack (n : BitVec 5) : (rotateBack n).toNat = (32 - n.toNat) % 32 := by
  rw [rotateBack, BitVec.toNat_ofNat]
  omega

theorem rotateBack_rotateBack (n : BitVec 5) : rotateBack (rotateBack n) = n := by
  apply BitVec.eq_of_toNat_eq
  rw [toNat_rotateBack, toNat_rotateBack]
  omega

/-- Left by `n` is right by what is left of a turn. -/
theorem rotateLeft_eq_rotateRight (a : Word) (n : BitVec 5) : rotateLeft a n = rotateRight a (rotateBack n) := by
  rw [rotateLeft, rotateRight, rotateBack_rotateBack, BitVec.or_comm]

/-- Without a rotation both shifts give the operand; else the shift right gives the bits below the turn, the shift left those
above it, and each gives 0 where the other answers. -/
theorem getLsbD_rotateRight (a : Word) (n : BitVec 5) {j : Nat} (hj : j < 32) :
    (rotateRight a n).getLsbD j = a.getLsbD ((j + n.toNat) % 32) := by
  rw [rotateRight, shiftRight, shiftLeft, BitVec.getLsbD_or, BitVec.getLsbD_ushiftRight, BitVec.getLsbD_shiftLeft,
    toNat_rotateBack, decide_eq_true hj, Bool.true_and]
  rcases Nat.eq_zero_or_pos n.toNat with hzero | hpos
  · simp [hzero, Nat.mod_eq_of_lt hj]
  have hback : (32 - n.toNat) % 32 = 32 - n.toNat := Nat.mod_eq_of_lt (by omega)
  rw [hback]
  rcases Nat.lt_or_ge (j + n.toNat) 32 with hlow | hhigh
  · have hbelow : j < 32 - n.toNat := by omega
    simp [hbelow, Nat.mod_eq_of_lt hlow, Nat.add_comm]
  · have hoff : a.getLsbD (n.toNat + j) = false := BitVec.getLsbD_of_ge _ _ (by omega)
    have habove : ¬ j < 32 - n.toNat := by omega
    have hturn : j - (32 - n.toNat) = (j + n.toNat) % 32 := by omega
    simp [hoff, habove, hturn]

/-- Bit `j` of `a` at bit `j + n`, modulo 32, is rotation to the left. -/
theorem rotateLeft_eq_of_bits {a v : Word} {n : BitVec 5}
    (h : ∀ j : Fin 32, v.getLsbD ((j.val + n.toNat) % 32) = a.getLsbD j.val) : rotateLeft a n = v := by
  apply BitVec.eq_of_getLsbD_eq
  intro i hi
  have hback : ((i + (rotateBack n).toNat) % 32 + n.toNat) % 32 = i := by
    rw [toNat_rotateBack]
    omega
  rw [rotateLeft_eq_rotateRight, getLsbD_rotateRight a _ hi, ← h ⟨_, Nat.mod_lt _ (by decide)⟩, hback]

/-- Bit `j + n`, modulo 32, of `a` at bit `j` is rotation to the right. -/
theorem rotateRight_eq_of_bits {a v : Word} {n : BitVec 5}
    (h : ∀ j : Fin 32, v.getLsbD j.val = a.getLsbD ((j.val + n.toNat) % 32)) : rotateRight a n = v :=
  BitVec.eq_of_getLsbD_eq fun i hi => (getLsbD_rotateRight a n hi).trans (h ⟨i, hi⟩).symm

/-- Settles O9: a value with the bits that the clause asks for is the rotation. The low five bits of a register are its amount
modulo 32. -/
theorem rotates : Obligations.Rotates := by
  intro s w hzbb
  refine ⟨?rol, ?ror, ?rori⟩
  case rol =>
    intro v hv
    refine encodes_of_funct7 rfl (writes_of_writeBack ?_) (hm := hzbb)
    rw [exec_rol, execRol, rotateLeft_eq_of_bits (v := v) fun j => by rw [toNat_low5, Nat.add_mod_mod, hv]]
  case ror =>
    intro v hv
    refine encodes_of_funct7 rfl (writes_of_writeBack ?_) (hm := hzbb)
    rw [exec_ror, execRor, rotateRight_eq_of_bits (v := v) fun j => by rw [toNat_low5, Nat.add_mod_mod, hv]]
  case rori =>
    intro v hv
    refine encodes_of_funct7 rfl (writes_of_writeBack ?_) (hm := hzbb)
    rw [exec_rori, execRori, rotateRight_eq_of_bits hv]

/-! ### Single bits -/

theorem oneBit_low5 (b : Word) : oneBit (low5 b) = 1#32 <<< (b.toNat % 32) := by
  rw [oneBit, shiftLeft, toNat_low5]

/-- The bit shifted to the bottom and cut off there, as a register value. -/
theorem shiftRight_and_one (a : Word) (n : BitVec 5) :
    shiftRight a n &&& 1#32 = if a.getLsbD n.toNat then 1#32 else 0#32 := by
  rw [shiftRight, BitVec.and_one_eq_setWidth_ofBool_getLsbD, BitVec.getLsbD_ushiftRight, Nat.add_zero]
  cases a.getLsbD n.toNat <;> rfl

/-- Settles O10: the mask fixes opcode and both functions; an index in a register is its low five bits. -/
theorem singleBits : Obligations.SingleBits := by
  intro s w hzbs
  refine ⟨?bclr, ?bclri, ?bext, ?bexti, ?binv, ?binvi, ?bset, ?bseti⟩
  case bclr =>
    refine encodes_of_funct7 rfl (writes_of_writeBack ?_) (hm := hzbs)
    rw [exec_bclr, execBclr, oneBit_low5]
  case bclri => exact encodes_of_funct7 rfl (writes_of_writeBack (exec_bclri ..)) (hm := hzbs)
  case bext =>
    refine encodes_of_funct7 rfl (writes_of_writeBack ?_) (hm := hzbs)
    rw [exec_bext, execBext, shiftRight_and_one, toNat_low5]
  case bexti =>
    refine encodes_of_funct7 rfl (writes_of_writeBack ?_) (hm := hzbs)
    rw [exec_bexti, execBexti, shiftRight_and_one]
  case binv =>
    refine encodes_of_funct7 rfl (writes_of_writeBack ?_) (hm := hzbs)
    rw [exec_binv, execBinv, oneBit_low5]
  case binvi => exact encodes_of_funct7 rfl (writes_of_writeBack (exec_binvi ..)) (hm := hzbs)
  case bset =>
    refine encodes_of_funct7 rfl (writes_of_writeBack ?_) (hm := hzbs)
    rw [exec_bset, execBset, oneBit_low5]
  case bseti => exact encodes_of_funct7 rfl (writes_of_writeBack (exec_bseti ..)) (hm := hzbs)

end Sys2Proof.Machine
end

section
/-! PROOFS. Which interrupt `SelectInterrupt` picks (60 R563): NMI and the global gate first, then the least of the eligible
numbers, found by one pass over all numbers in rising order. -/

namespace Sys2Proof.Machine

/-! ### The eligible numbers -/

theorem isProgrammable_iff (n : IrqNum) : isProgrammable n = true ↔ n = 12#8 ∨ n = 14#8 ∨ 16 ≤ n.toNat := by
  simp only [isProgrammable, Bool.or_eq_true, beq_iff_eq, decide_eq_true_eq, or_assoc]

/-- `programmableMask` has the bit of each programmable number. -/
theorem getLsbD_programmableMask (n : IrqNum) : programmableMask.getLsbD n.toNat = isProgrammable n := by
  revert n
  decide

theorem State.active_eq_false_iff (s : State) (n : IrqNum) : s.active n = false ↔ ∀ e ∈ s.nest, e.actidx ≠ n := by
  simp only [State.active, List.any_eq_false, beq_iff_eq, ne_eq]

theorem State.aboveThreshold_iff (s : State) (n : IrqNum) :
    s.aboveThreshold n = true ↔ s.pfic.threshold = 0#8 ∨ (s.prioOf n).toNat < s.pfic.threshold.toNat := by
  simp only [State.aboveThreshold, Bool.or_eq_true, beq_iff_eq, decide_eq_true_eq]

theorem State.mayPreempt_iff (s : State) (n : IrqNum) :
    s.mayPreempt n = true ↔
      s.nest = [] ∨
        (s.nestingOn = true ∧ s.level < 2 ∧
          ∃ e rest, s.nest = e :: rest ∧ (e.actidx = 12#8 ∨ e.actidx = 14#8 ∨ 16 ≤ e.actidx.toNat) ∧
            s.preemption n < s.preemption e.actidx) := by
  cases hnest : s.nest with
  | nil => simp [State.mayPreempt, hnest]
  | cons e rest => simp [State.mayPreempt, hnest, isProgrammable_iff, and_assoc]

/-- The set `C` of 60 R563. -/
theorem State.candidate_iff_eligible (s : State) (n : IrqNum) : s.candidate n = true ↔ Eligible s n := by
  simp only [State.candidate, Eligible, Bool.and_eq_true, Bool.not_eq_true', isProgrammable_iff, State.pending, State.enabled,
    State.aboveThreshold_iff, State.active_eq_false_iff, State.mayPreempt_iff, and_assoc]

/-- `bestCandidate` does not search when no programmable number is pending: then none is eligible. -/
theorem not_eligible_of_pend_and_mask {s : State} (h : s.pfic.pend &&& programmableMask = 0#256) (n : IrqNum) :
    ¬Eligible s n := by
  rintro ⟨hprog, hpend, -⟩
  have hbit := congrArg (fun v => v.getLsbD n.toNat) h
  rw [← isProgrammable_iff, ← getLsbD_programmableMask] at hprog
  simp [hprog, hpend] at hbit

/-! ### The order of (priority, number) -/

/-- `(prio[n], n)` is not above `(prio[m], m)` (60 R563). -/
def NotAfter (s : State) (n m : IrqNum) : Prop :=
  (s.prioOf n).toNat < (s.prioOf m).toNat ∨ (s.prioOf n = s.prioOf m ∧ n.toNat ≤ m.toNat)

theorem NotAfter.refl (s : State) (n : IrqNum) : NotAfter s n n := .inr ⟨rfl, Nat.le_refl _⟩

theorem NotAfter.trans {s : State} {n m k : IrqNum} (hnm : NotAfter s n m) (hmk : NotAfter s m k) : NotAfter s n k := by
  simp only [NotAfter, ← BitVec.toNat_inj] at *
  omega

theorem NotAfter.antisymm {s : State} {n m : IrqNum} (hnm : NotAfter s n m) (hmn : NotAfter s m n) : n = m := by
  simp only [NotAfter, ← BitVec.toNat_inj] at *
  omega

/-- Of a number and a later one, the later goes first only by a smaller priority value. -/
theorem NotAfter.of_not_lt {s : State} {n m : IrqNum} (hlt : n.toNat < m.toNat)
    (hprio : ¬(s.prioOf m).toNat < (s.prioOf n).toNat) : NotAfter s n m := by
  simp only [NotAfter, ← BitVec.toNat_inj]
  omega

/-! ### The pass over the numbers -/

/-- `best` is the least of the eligible numbers below `k`, `none` if there is none. -/
def LeastBelow (s : State) (k : Nat) : Option IrqNum → Prop
  | none => ∀ m, Eligible s m → k ≤ m.toNat
  | some n => Eligible s n ∧ n.toNat < k ∧ ∀ m, Eligible s m → m.toNat < k → NotAfter s n m

theorem State.betterIrq_of_not_eligible {s : State} {n : IrqNum} (h : ¬Eligible s n) (best : Option IrqNum) :
    s.betterIrq best n = best := by
  unfold State.betterIrq
  exact if_neg (mt (s.candidate_iff_eligible n).mp h)

theorem State.betterIrq_none_of_eligible {s : State} {n : IrqNum} (h : Eligible s n) : s.betterIrq none n = some n := by
  rw [State.betterIrq, if_pos ((s.candidate_iff_eligible n).mpr h)]

theorem State.betterIrq_some_of_eligible {s : State} {n : IrqNum} (h : Eligible s n) (b : IrqNum) :
    s.betterIrq (some b) n = if (s.prioOf n).toNat < (s.prioOf b).toNat then some n else some b := by
  rw [State.betterIrq, if_pos ((s.candidate_iff_eligible n).mpr h)]

/-- Below `n + 1` means below `n`, or `n` itself. -/
theorem toNat_lt_or_eq_of_lt_succ {n m : IrqNum} (h : m.toNat < n.toNat + 1) : m.toNat < n.toNat ∨ m = n :=
  (Nat.lt_succ_iff_lt_or_eq.mp h).imp_right BitVec.eq_of_toNat_eq

/-- One step of the pass keeps the choice the least. -/
theorem State.betterIrq_leastBelow {s : State} {n : IrqNum} {best : Option IrqNum} (h : LeastBelow s n.toNat best) :
    LeastBelow s (n.toNat + 1) (s.betterIrq best n) := by
  by_cases hn : Eligible s n
  case neg =>
    rw [State.betterIrq_of_not_eligible hn]
    have hbelow (m : IrqNum) (hm : Eligible s m) (hlt : m.toNat < n.toNat + 1) : m.toNat < n.toNat :=
      (toNat_lt_or_eq_of_lt_succ hlt).resolve_right fun heq => hn (heq ▸ hm)
    cases best with
    | none => exact fun m hm => Nat.le_of_not_lt fun hlt => absurd (hbelow m hm hlt) (Nat.not_lt.mpr (h m hm))
    | some b =>
      obtain ⟨hb, hlt, hleast⟩ := h
      exact ⟨hb, Nat.lt_succ_of_lt hlt, fun m hm hmlt => hleast m hm (hbelow m hm hmlt)⟩
  case pos =>
    cases best with
    | none =>
      rw [State.betterIrq_none_of_eligible hn]
      refine ⟨hn, Nat.lt_succ_self _, fun m hm hlt => ?_⟩
      obtain hlt | rfl := toNat_lt_or_eq_of_lt_succ hlt
      · exact absurd hlt (Nat.not_lt.mpr (h m hm))
      · exact .refl s m
    | some b =>
      obtain ⟨hb, hlt, hleast⟩ := h
      rw [State.betterIrq_some_of_eligible hn]
      split
      case isTrue hprio =>
        refine ⟨hn, Nat.lt_succ_self _, fun m hm hmlt => ?_⟩
        obtain hmlt | rfl := toNat_lt_or_eq_of_lt_succ hmlt
        · exact .trans (.inl hprio) (hleast m hm hmlt)
        · exact .refl s m
      case isFalse hprio =>
        refine ⟨hb, Nat.lt_succ_of_lt hlt, fun m hm hmlt => ?_⟩
        obtain hmlt | rfl := toNat_lt_or_eq_of_lt_succ hmlt
        · exact hleast m hm hmlt
        · exact .of_not_lt hlt hprio

/-- After the numbers below `k` the choice is the least of them. -/
theorem State.foldl_betterIrq_leastBelow (s : State) {k : Nat} (hk : k ≤ 256) :
    LeastBelow s k ((List.range k).foldl (fun best n => s.betterIrq best (BitVec.ofNat 8 n)) none) := by
  induction k with
  | zero => exact fun m _ => Nat.zero_le m.toNat
  | succ k ih =>
    rw [List.range_succ, List.foldl_append, List.foldl_cons, List.foldl_nil]
    have hnum : (BitVec.ofNat 8 k).toNat = k := (BitVec.toNat_ofNat k 8).trans (Nat.mod_eq_of_lt hk)
    have hstep := State.betterIrq_leastBelow (n := BitVec.ofNat 8 k) (hnum.symm ▸ ih (Nat.le_of_succ_le hk))
    rwa [hnum] at hstep

theorem State.bestCandidate_leastBelow (s : State) : LeastBelow s 256 s.bestCandidate := by
  unfold State.bestCandidate
  split
  case isTrue hmask => exact fun m hm => absurd hm (not_eligible_of_pend_and_mask hmask m)
  case isFalse => exact s.foldl_betterIrq_leastBelow (Nat.le_refl 256)

theorem State.bestCandidate_eq_none_iff (s : State) : s.bestCandidate = none ↔ ∀ n, ¬Eligible s n := by
  have hleast := s.bestCandidate_leastBelow
  cases hbest : s.bestCandidate with
  | none =>
    rw [hbest] at hleast
    exact iff_of_true rfl fun n hn => absurd n.isLt (Nat.not_lt.mpr (hleast n hn))
  | some b =>
    rw [hbest] at hleast
    exact iff_of_false (Option.some_ne_none b) fun hnone => hnone b hleast.1

theorem State.bestCandidate_eq_some_iff (s : State) (n : IrqNum) :
    s.bestCandidate = some n ↔ Eligible s n ∧ ∀ m, Eligible s m → NotAfter s n m := by
  have hleast := s.bestCandidate_leastBelow
  constructor
  · intro hbest
    rw [hbest] at hleast
    obtain ⟨hn, -, hmin⟩ := hleast
    exact ⟨hn, fun m hm => hmin m hm m.isLt⟩
  · rintro ⟨hn, hmin⟩
    cases hbest : s.bestCandidate with
    | none => exact absurd hn (s.bestCandidate_eq_none_iff.mp hbest n)
    | some b =>
      rw [hbest] at hleast
      obtain ⟨hb, -, hbmin⟩ := hleast
      rw [(hbmin n hn n.isLt).antisymm (hmin b hb)]

/-! ### NMI, the gate and single-stepping -/

/-- NMI is pending, no NMI handler is active, and the level leaves room for its entry (60 R514). -/
def NmiDue (s : State) : Prop :=
  s.pfic.pend.getLsbD 2 = true ∧ (∀ e ∈ s.nest, e.actidx ≠ 2#8) ∧ s.level ≤ 2

/-- `GlobalGate()` (60 R529) as a proposition. -/
def GateOpen (s : State) : Prop :=
  s.csr.mstatus.mie = true ∧ (s.isV3A = true ∨ s.csr.intsyscr.gihwstknen = false)

theorem State.globalGate_iff (s : State) : s.globalGate = true ↔ GateOpen s := by
  simp only [State.globalGate, GateOpen, Bool.and_eq_true, Bool.or_eq_true, Bool.not_eq_true']

theorem State.nmiDue_iff (s : State) :
    (s.pending 2#8 && !s.active 2#8 && decide (s.level ≤ 2)) = true ↔ NmiDue s := by
  simp only [Bool.and_eq_true, Bool.not_eq_true', State.active_eq_false_iff, decide_eq_true_eq, and_assoc]
  exact Iff.rfl

theorem State.selectInterrupt_of_nmiDue {s : State} (h : NmiDue s) : s.selectInterrupt = some 2#8 := by
  rw [State.selectInterrupt, if_pos (s.nmiDue_iff.mpr h)]

theorem State.selectInterrupt_of_closed {s : State} (hnmi : ¬NmiDue s) (h : ¬GateOpen s ∨ s.debugMode = true) :
    s.selectInterrupt = none := by
  have hclosed : (!s.globalGate || s.debugMode) = true := by
    rwa [Bool.or_eq_true, Bool.not_eq_true', ← Bool.not_eq_true, s.globalGate_iff]
  rw [State.selectInterrupt, if_neg (mt s.nmiDue_iff.mp hnmi), if_pos hclosed]

theorem State.selectInterrupt_of_open {s : State} (hnmi : ¬NmiDue s) (hgate : GateOpen s) (hdebug : s.debugMode = false) :
    s.selectInterrupt = s.bestCandidate := by
  have hopen : (!s.globalGate || s.debugMode) = false := by
    rw [s.globalGate_iff.mpr hgate, hdebug]
    rfl
  rw [State.selectInterrupt, if_neg (mt s.nmiDue_iff.mp hnmi), if_neg (Bool.eq_false_iff.mp hopen)]

/-- Single-stepping with `stepie` 0 runs the instruction, whatever is selected (61 R632). -/
theorem State.awakeTurn_of_stepBlocked {s : State} (hstep : s.dbg.dcsr.step = true) (hie : s.dbg.dcsr.stepie = false)
    (d : Bool) : s.awakeTurn d = .run s := by
  unfold State.awakeTurn
  split
  · rfl
  · rw [hstep, hie]
    rfl

/-- Settles O46: NMI goes before the gate, and the pass over the numbers finds the least of the eligible ones. -/
theorem interruptChoice : Obligations.InterruptChoice := by
  intro s nmi gate
  refine ⟨State.selectInterrupt_of_nmiDue, State.selectInterrupt_of_closed, fun hnmi hgate hdebug => ?gateOpen, ?stepping⟩
  case gateOpen =>
    rw [State.selectInterrupt_of_open hnmi hgate hdebug]
    exact ⟨s.bestCandidate_eq_none_iff, s.bestCandidate_eq_some_iff⟩
  case stepping =>
    intro hstep hie d n t hturn
    rw [State.awakeTurn_of_stepBlocked hstep hie] at hturn
    cases hturn

end Sys2Proof.Machine
end

section
/-! PROOFS. The decoder and the encoder are inverse to each other on the rows of the opcode table (30 R156, R160): a word or
parcel is its fields, each layout of an immediate can be undone, and then one case for each row. -/

namespace Sys2Proof

/-! ### A word and a parcel are their fields -/

theorem word32_fields (w : Word) :
    word32 (funct7Of w) (rs2Of w) (rs1Of w) (funct3Of w) (rdOf w) (opcodeOf w) = w := by
  ext i hi
  interval_cases i <;> simp [word32, funct7Of, rs2Of, rs1Of, funct3Of, rdOf, opcodeOf, fieldAt]

theorem word16_fields (p : Half) :
    word16 (p.extractLsb' 13 3) (p.extractLsb' 12 1) (p.extractLsb' 10 2) (p.extractLsb' 7 3) (p.extractLsb' 5 2)
      (p.extractLsb' 2 3) (p.extractLsb' 0 2) = p := by
  ext i hi
  interval_cases i <;> simp [word16, fieldAt]

/-- The upper of two adjacent fields. -/
theorem extract_upper {a b k : Nat} (x : BitVec a) (y : BitVec b) (hk : k = a + b) :
    (fieldAt k x b ||| fieldAt k y 0).extractLsb' b a = x := by
  subst hk
  ext i h
  have h1 : b + i < a + b := by omega
  simp [fieldAt, h, h1]

/-- The lower of two adjacent fields. -/
theorem extract_lower {a b k : Nat} (x : BitVec a) (y : BitVec b) (hk : k = a + b) :
    (fieldAt k x b ||| fieldAt k y 0).extractLsb' 0 b = y := by
  subst hk
  ext i h
  have h2 : i < a + b := by omega
  simp [fieldAt, h, h2]

/-! ### The layouts of the 32-bit immediates (R152) -/

section Layouts32
variable (f7 : BitVec 7) (rs2 rs1 : Reg) (f3 : BitVec 3) (rd : Reg) (op : BitVec 7)

theorem immB_even : (immB f7 rd).extractLsb' 0 1 = 0#1 := by
  ext i h; interval_cases i; simp [immB, fieldAt]
theorem immJ_even : (immJ f7 rs2 rs1 f3).extractLsb' 0 1 = 0#1 := by
  ext i h; interval_cases i; simp [immJ, fieldAt]

theorem encI_immI : encI f3 op rd rs1 (immI f7 rs2) = word32 f7 rs2 rs1 f3 rd op := by
  unfold encI
  congr 1 <;> (ext i h; interval_cases i <;> simp [immHi7, immLo5, immI, fieldAt])

theorem encS_immI : encS f3 op rs2 rs1 (immI f7 rd) = word32 f7 rs2 rs1 f3 rd op := by
  unfold encS
  congr 1 <;> (ext i h; interval_cases i <;> simp [immHi7, immLo5, immI, fieldAt])

theorem encB_immB : encB f3 op rs1 rs2 (immB f7 rd) = word32 f7 rs2 rs1 f3 rd op := by
  unfold encB
  congr 1 <;> (ext i h; interval_cases i <;> simp [immBHi, immBLo, immB, fieldAt])

theorem encU_immU : encU op rd (immU f7 rs2 rs1 f3) = word32 f7 rs2 rs1 f3 rd op := by
  unfold encU
  congr 1 <;> (ext i h; interval_cases i <;> simp [immU, fieldAt])

theorem encJ_immJ : encJ op rd (immJ f7 rs2 rs1 f3) = word32 f7 rs2 rs1 f3 rd op := by
  unfold encJ
  congr 1 <;> (ext i h; interval_cases i <;> simp [immJ, fieldAt])

/-- The four parts of a `fence` are the immediate again. -/
theorem encFence_immI :
    encFence ((immI f7 rs2).extractLsb' 8 4) ((immI f7 rs2).extractLsb' 4 4) ((immI f7 rs2).extractLsb' 0 4) rs1 rd =
      word32 f7 rs2 rs1 0#3 rd 0x0F#7 := by
  rw [← encI_immI, encFence]
  congr 1
  generalize immI f7 rs2 = imm
  ext i h; interval_cases i <;> simp [fieldAt]

/-- `funct5`, `aq` and `rl` are `funct7`. -/
theorem encA_funct7 : encA (f7.extractLsb' 2 5) rd rs2 rs1 (f7.extractLsb' 1 1) (f7.extractLsb' 0 1) =
    word32 f7 rs2 rs1 2#3 rd 0x2F#7 := by
  unfold encA
  congr 1
  ext i h; interval_cases i <;> simp [fieldAt]

end Layouts32

theorem immU_parts (imm : BitVec 20) :
    immU (imm.extractLsb' 13 7) (imm.extractLsb' 8 5) (imm.extractLsb' 3 5) (imm.extractLsb' 0 3) = imm := by
  ext i h; interval_cases i <;> simp [immU, fieldAt]

theorem immB_parts {imm : BitVec 13} (h : imm.extractLsb' 0 1 = 0#1) : immB (immBHi imm) (immBLo imm) = imm := by
  have h0 : imm[0] = false := by simpa using congrArg (fun v => v.getLsbD 0) h
  rw [immB, immBHi, immBLo, extract_upper _ _ rfl, extract_lower _ _ rfl, extract_upper _ _ rfl, extract_lower _ _ rfl]
  ext i hi; interval_cases i <;> simp [fieldAt, h0]

theorem immJ_parts {imm : BitVec 21} (h : imm.extractLsb' 0 1 = 0#1) :
    immJ (fieldAt 7 (imm.extractLsb' 20 1) 6 ||| fieldAt 7 (imm.extractLsb' 5 6) 0)
      (fieldAt 5 (imm.extractLsb' 1 4) 1 ||| fieldAt 5 (imm.extractLsb' 11 1) 0) (imm.extractLsb' 15 5)
      (imm.extractLsb' 12 3) = imm := by
  have h0 : imm[0] = false := by simpa using congrArg (fun v => v.getLsbD 0) h
  rw [immJ, extract_upper _ _ rfl, extract_lower _ _ rfl, extract_upper _ _ rfl, extract_lower _ _ rfl]
  ext i hi; interval_cases i <;> simp [fieldAt, h0]

theorem funct7_amo (f5 : BitVec 5) (aq rl : BitVec 1) :
    (fieldAt 7 f5 2 ||| fieldAt 7 aq 1 ||| fieldAt 7 rl 0).extractLsb' 2 5 = f5 ∧
      (fieldAt 7 f5 2 ||| fieldAt 7 aq 1 ||| fieldAt 7 rl 0).extractLsb' 1 1 = aq ∧
        (fieldAt 7 f5 2 ||| fieldAt 7 aq 1 ||| fieldAt 7 rl 0).extractLsb' 0 1 = rl := by
  refine ⟨?_, ?_, ?_⟩ <;> (ext i h; interval_cases i <;> simp [fieldAt])

theorem fence_parts (fm pred succ : BitVec 4) :
    (fieldAt 12 fm 8 ||| fieldAt 12 pred 4 ||| fieldAt 12 succ 0).extractLsb' 8 4 = fm ∧
      (fieldAt 12 fm 8 ||| fieldAt 12 pred 4 ||| fieldAt 12 succ 0).extractLsb' 4 4 = pred ∧
        (fieldAt 12 fm 8 ||| fieldAt 12 pred 4 ||| fieldAt 12 succ 0).extractLsb' 0 4 = succ := by
  refine ⟨?_, ?_, ?_⟩ <;> (ext i h; interval_cases i <;> simp [fieldAt])

/-! ### The layouts of the 16-bit immediates (R155) -/

section Layouts16
variable (b12 : BitVec 1) (hi : BitVec 2) (ra : BitVec 3) (mid : BitVec 2) (rb : BitVec 3) (f3 : BitVec 3) (op : BitVec 2)

@[simp] theorem regHi_reg5 : regHi (reg5 mid rb) = mid := by
  ext i h; interval_cases i <;> simp [reg5, regHi, fieldAt]
@[simp] theorem regLo_reg5 : regLo (reg5 mid rb) = rb := by
  ext i h; interval_cases i <;> simp [reg5, regLo, fieldAt]

theorem encCI_cimm6 : encCI f3 op (reg5 hi ra) (cimm6 b12 mid rb) = word16 f3 b12 hi ra mid rb op := by
  unfold encCI
  rw [regHi_reg5, regLo_reg5]
  congr 1 <;> (ext i h; interval_cases i <;> simp [cimm6, fieldAt])

theorem encCL_cimmLw : encCL f3 rb ra (cimmLw b12 hi mid) = word16 f3 b12 hi ra mid rb 0#2 := by
  unfold encCL
  congr 1 <;> (ext i h; interval_cases i <;> simp [cimmLw, fieldAt])

theorem encCIW_cimm : encCIW rb (cimmAddi4spn b12 hi ra mid) = word16 0#3 b12 hi ra mid rb 0#2 := by
  unfold encCIW
  congr 1 <;> (ext i h; interval_cases i <;> simp [cimmAddi4spn, fieldAt])

theorem encCB_cimmB : encCB f3 ra (cimmB b12 hi mid rb) = word16 f3 b12 hi ra mid rb 1#2 := by
  unfold encCB
  congr 1 <;> (ext i h; interval_cases i <;> simp [cimmB, fieldAt])

theorem encCJ_cimmJ : encCJ f3 (cimmJ b12 hi ra mid rb) = word16 f3 b12 hi ra mid rb 1#2 := by
  unfold encCJ
  congr 1 <;> (ext i h; interval_cases i <;> simp [cimmJ, fieldAt])

theorem encCAddi16sp_cimm (h : reg5 hi ra = 2#5) :
    encCAddi16sp (cimmAddi16sp b12 mid rb) = word16 3#3 b12 hi ra mid rb 1#2 := by
  obtain rfl : hi = 0#2 := by rw [← regHi_reg5 hi ra, h]; rfl
  obtain rfl : ra = 2#3 := by rw [← regLo_reg5 0#2 ra, h]; rfl
  unfold encCAddi16sp
  congr 1 <;> (ext i h; interval_cases i <;> simp [cimmAddi16sp, fieldAt])

theorem encCLwsp_cimm : encCLwsp (reg5 hi ra) (cimmLwsp b12 mid rb) = word16 2#3 b12 hi ra mid rb 2#2 := by
  unfold encCLwsp
  rw [regHi_reg5, regLo_reg5]
  congr 1 <;> (ext i h; interval_cases i <;> simp [cimmLwsp, fieldAt])

theorem encCSwsp_cimm : encCSwsp (reg5 mid rb) (cimmSwsp b12 hi ra) = word16 6#3 b12 hi ra mid rb 2#2 := by
  unfold encCSwsp
  rw [regHi_reg5, regLo_reg5]
  congr 1 <;> (ext i h; interval_cases i <;> simp [cimmSwsp, fieldAt])

theorem cimmLw_low : (cimmLw b12 hi mid).extractLsb' 0 2 = 0#2 := by
  ext i h; interval_cases i <;> simp [cimmLw, fieldAt]
theorem cimmAddi4spn_low : (cimmAddi4spn b12 hi ra mid).extractLsb' 0 2 = 0#2 := by
  ext i h; interval_cases i <;> simp [cimmAddi4spn, fieldAt]
theorem cimmAddi16sp_low : (cimmAddi16sp b12 mid rb).extractLsb' 0 4 = 0#4 := by
  ext i h; interval_cases i <;> simp [cimmAddi16sp, fieldAt]
theorem cimmJ_low : (cimmJ b12 hi ra mid rb).extractLsb' 0 1 = 0#1 := by
  ext i h; interval_cases i; simp [cimmJ, fieldAt]
theorem cimmB_low : (cimmB b12 hi mid rb).extractLsb' 0 1 = 0#1 := by
  ext i h; interval_cases i; simp [cimmB, fieldAt]
theorem cimmLwsp_low : (cimmLwsp b12 mid rb).extractLsb' 0 2 = 0#2 := by
  ext i h; interval_cases i <;> simp [cimmLwsp, fieldAt]
theorem cimmSwsp_low : (cimmSwsp b12 hi ra).extractLsb' 0 2 = 0#2 := by
  ext i h; interval_cases i <;> simp [cimmSwsp, fieldAt]

end Layouts16

theorem cimm6_parts (imm : BitVec 6) : cimm6 (imm.extractLsb' 5 1) (imm.extractLsb' 3 2) (imm.extractLsb' 0 3) = imm := by
  ext i h; interval_cases i <;> simp [cimm6, fieldAt]

/-- The bits that a layout drops are 0. -/
theorem getElem_of_low {n k : Nat} {imm : BitVec n} (h : imm.extractLsb' 0 k = 0#k) (j : Nat) (hj : j < k) (hn : j < n) :
    imm[j] = false := by
  simpa [hj, hn] using congrArg (fun v => v.getLsbD j) h

theorem cimmLw_parts {imm : BitVec 7} (h : imm.extractLsb' 0 2 = 0#2) :
    cimmLw (imm.extractLsb' 5 1) (imm.extractLsb' 3 2)
      (fieldAt 2 (imm.extractLsb' 2 1) 1 ||| fieldAt 2 (imm.extractLsb' 6 1) 0) = imm := by
  have h0 := getElem_of_low h 0 (by decide) (by decide)
  have h1 := getElem_of_low h 1 (by decide) (by decide)
  ext i hi; interval_cases i <;> simp [cimmLw, fieldAt, h0, h1]

theorem cimmAddi4spn_parts {imm : BitVec 10} (h : imm.extractLsb' 0 2 = 0#2) :
    cimmAddi4spn (imm.extractLsb' 5 1) (fieldAt 2 (imm.extractLsb' 4 1) 1 ||| fieldAt 2 (imm.extractLsb' 9 1) 0)
      (imm.extractLsb' 6 3) (fieldAt 2 (imm.extractLsb' 2 1) 1 ||| fieldAt 2 (imm.extractLsb' 3 1) 0) = imm := by
  have h0 := getElem_of_low h 0 (by decide) (by decide)
  have h1 := getElem_of_low h 1 (by decide) (by decide)
  rw [cimmAddi4spn, extract_upper _ _ rfl, extract_lower _ _ rfl, extract_upper _ _ rfl, extract_lower _ _ rfl]
  ext i hi; interval_cases i <;> simp [fieldAt, h0, h1]

theorem cimmAddi16sp_parts {imm : BitVec 10} (h : imm.extractLsb' 0 4 = 0#4) :
    cimmAddi16sp (imm.extractLsb' 9 1) (fieldAt 2 (imm.extractLsb' 4 1) 1 ||| fieldAt 2 (imm.extractLsb' 6 1) 0)
      (fieldAt 3 (imm.extractLsb' 7 2) 1 ||| fieldAt 3 (imm.extractLsb' 5 1) 0) = imm := by
  have h0 := getElem_of_low h 0 (by decide) (by decide)
  have h1 := getElem_of_low h 1 (by decide) (by decide)
  have h2 := getElem_of_low h 2 (by decide) (by decide)
  have h3 := getElem_of_low h 3 (by decide) (by decide)
  rw [cimmAddi16sp, extract_upper _ _ rfl, extract_lower _ _ rfl, extract_upper _ _ rfl, extract_lower _ _ rfl]
  ext i hi; interval_cases i <;> simp [fieldAt, h0, h1, h2, h3]

theorem cimmJ_parts {imm : BitVec 12} (h : imm.extractLsb' 0 1 = 0#1) :
    cimmJ (imm.extractLsb' 11 1) (fieldAt 2 (imm.extractLsb' 4 1) 1 ||| fieldAt 2 (imm.extractLsb' 9 1) 0)
      (fieldAt 3 (imm.extractLsb' 8 1) 2 ||| fieldAt 3 (imm.extractLsb' 10 1) 1 ||| fieldAt 3 (imm.extractLsb' 6 1) 0)
      (fieldAt 2 (imm.extractLsb' 7 1) 1 ||| fieldAt 2 (imm.extractLsb' 3 1) 0)
      (fieldAt 3 (imm.extractLsb' 1 2) 1 ||| fieldAt 3 (imm.extractLsb' 5 1) 0) = imm := by
  have h0 := getElem_of_low h 0 (by decide) (by decide)
  have hra : ∀ x y z : BitVec 1, (fieldAt 3 x 2 ||| fieldAt 3 y 1 ||| fieldAt 3 z 0).extractLsb' 2 1 = x ∧
      (fieldAt 3 x 2 ||| fieldAt 3 y 1 ||| fieldAt 3 z 0).extractLsb' 1 1 = y ∧
        (fieldAt 3 x 2 ||| fieldAt 3 y 1 ||| fieldAt 3 z 0).extractLsb' 0 1 = z := by decide
  rw [cimmJ, (hra _ _ _).1, (hra _ _ _).2.1, (hra _ _ _).2.2, extract_upper _ _ rfl, extract_lower _ _ rfl,
    extract_upper _ _ rfl, extract_lower _ _ rfl, extract_upper _ _ rfl, extract_lower _ _ rfl]
  ext i hi; interval_cases i <;> simp [fieldAt, h0]

theorem cimmB_parts {imm : BitVec 9} (h : imm.extractLsb' 0 1 = 0#1) :
    cimmB (imm.extractLsb' 8 1) (imm.extractLsb' 3 2) (imm.extractLsb' 6 2)
      (fieldAt 3 (imm.extractLsb' 1 2) 1 ||| fieldAt 3 (imm.extractLsb' 5 1) 0) = imm := by
  have h0 := getElem_of_low h 0 (by decide) (by decide)
  rw [cimmB, extract_upper _ _ rfl, extract_lower _ _ rfl]
  ext i hi; interval_cases i <;> simp [fieldAt, h0]

theorem cimmLwsp_parts {imm : BitVec 8} (h : imm.extractLsb' 0 2 = 0#2) :
    cimmLwsp (imm.extractLsb' 5 1) (imm.extractLsb' 3 2)
      (fieldAt 3 (imm.extractLsb' 2 1) 2 ||| fieldAt 3 (imm.extractLsb' 6 2) 0) = imm := by
  have h0 := getElem_of_low h 0 (by decide) (by decide)
  have h1 := getElem_of_low h 1 (by decide) (by decide)
  rw [cimmLwsp, extract_upper _ _ rfl, extract_lower _ _ rfl]
  ext i hi; interval_cases i <;> simp [fieldAt, h0, h1]

theorem cimmSwsp_parts {imm : BitVec 8} (h : imm.extractLsb' 0 2 = 0#2) :
    cimmSwsp (imm.extractLsb' 5 1) (imm.extractLsb' 3 2)
      (fieldAt 3 (imm.extractLsb' 2 1) 2 ||| fieldAt 3 (imm.extractLsb' 6 2) 0) = imm := by
  have h0 := getElem_of_low h 0 (by decide) (by decide)
  have h1 := getElem_of_low h 1 (by decide) (by decide)
  rw [cimmSwsp, extract_upper _ _ rfl, extract_lower _ _ rfl]
  ext i hi; interval_cases i <;> simp [fieldAt, h0, h1]

end Sys2Proof
end

section
/-! PROOFS. Decoding what the encoder writes, and encoding what the decoder read (30 R156, R160). -/

namespace Sys2Proof

/-! ### From the decoded row to its bits -/

/-- The bits `f` are those of the well-formed instruction `i`. -/
def EncodesAs (c : Config) (i : Instr) (f : Fetched) : Prop := i.encode c = some f ∧ i.wellFormed = true

section Rows32
variable {c : Config} {f7 : BitVec 7} {rs2 rs1 : Reg} {f3 : BitVec 3} {rd : Reg} {op : BitVec 7} {i : Instr}

theorem encodesAs_of_word {w w' : Word} (he : i.encode c = some (.full w)) (hw : w = w')
    (hf : i.wellFormed = true := by rfl) : EncodesAs c i (.full w') :=
  ⟨hw ▸ he, hf⟩

theorem encodesAs_of_decodeLoad (h : decodeLoad f3 rd rs1 (immI f7 rs2) = some i) :
    EncodesAs c i (.full (word32 f7 rs2 rs1 f3 rd 0x03#7)) := by
  unfold decodeLoad at h
  split at h
  case h_6 => cases h
  all_goals cases h; exact encodesAs_of_word rfl (encI_immI ..)

theorem encodesAs_of_decodeStore (h : decodeStore f3 rs2 rs1 (immI f7 rd) = some i) :
    EncodesAs c i (.full (word32 f7 rs2 rs1 f3 rd 0x23#7)) := by
  unfold decodeStore at h
  split at h
  case h_4 => cases h
  all_goals cases h; exact encodesAs_of_word rfl (encS_immI ..)

theorem encodesAs_of_decodeBranch (h : decodeBranch f3 rs1 rs2 (immB f7 rd) = some i) :
    EncodesAs c i (.full (word32 f7 rs2 rs1 f3 rd 0x63#7)) := by
  have heven : ((immB f7 rd).extractLsb' 0 1 == 0#1) = true := by rw [immB_even]; rfl
  unfold decodeBranch at h
  split at h
  case h_7 => cases h
  all_goals cases h; exact encodesAs_of_word rfl (encB_immB ..) heven

theorem encodesAs_of_decodeMiscMem (h : decodeMiscMem f7 rs2 rs1 f3 rd = some i) :
    EncodesAs c i (.full (word32 f7 rs2 rs1 f3 rd 0x0F#7)) := by
  unfold decodeMiscMem at h
  split at h
  case h_1 => cases h; exact encodesAs_of_word rfl (encFence_immI ..)
  case h_2 => cases h; exact encodesAs_of_word rfl (encI_immI ..)
  case h_3 => cases h

theorem encodesAs_of_decodeOpImm1 (h : decodeOpImm1 f7 rs2 rs1 rd = some i) :
    EncodesAs c i (.full (word32 f7 rs2 rs1 1#3 rd 0x13#7)) := by
  unfold decodeOpImm1 at h
  split at h
  case h_2 =>
    split at h
    case h_6 => cases h
    all_goals cases h; exact ⟨rfl, rfl⟩
  case h_6 => cases h
  all_goals cases h; exact ⟨rfl, rfl⟩

theorem encodesAs_of_decodeOpImm5 (h : decodeOpImm5 f7 rs2 rs1 rd = some i) :
    EncodesAs c i (.full (word32 f7 rs2 rs1 5#3 rd 0x13#7)) := by
  unfold decodeOpImm5 at h
  split at h
  case h_4 | h_5 =>
    split at h
    case h_1 => cases h; exact ⟨rfl, rfl⟩
    case h_2 => cases h
  case h_7 => cases h
  all_goals cases h; exact ⟨rfl, rfl⟩

theorem encodesAs_of_decodeOpImm (h : decodeOpImm f7 rs2 rs1 f3 rd = some i) :
    EncodesAs c i (.full (word32 f7 rs2 rs1 f3 rd 0x13#7)) := by
  unfold decodeOpImm at h
  split at h
  case h_2 => exact encodesAs_of_decodeOpImm1 h
  case h_6 => exact encodesAs_of_decodeOpImm5 h
  case h_9 => cases h
  all_goals cases h; exact encodesAs_of_word rfl (encI_immI ..)

theorem encodesAs_of_decodeOp (h : decodeOp f7 rs2 rs1 f3 rd = some i) :
    EncodesAs c i (.full (word32 f7 rs2 rs1 f3 rd 0x33#7)) := by
  unfold decodeOp at h
  split at h
  case h_3 =>
    split at h
    case h_1 =>
      split at h
      case isTrue hz => cases h; subst hz; exact ⟨rfl, rfl⟩
      case isFalse => cases h
    case h_2 => cases h
  case h_11 => cases h
  all_goals
    split at h
    all_goals cases h
    all_goals exact ⟨rfl, rfl⟩

theorem encodesAs_of_decodeSystem0 (h : decodeSystem0 f7 rs2 rs1 rd = some i) :
    EncodesAs c i (.full (word32 f7 rs2 rs1 0#3 rd 0x73#7)) := by
  unfold decodeSystem0 at h
  split at h
  case isFalse => cases h
  case isTrue hz =>
    obtain ⟨rfl, rfl⟩ := hz
    split at h
    case h_4 => cases h
    all_goals
      split at h
      all_goals cases h
      all_goals exact encodesAs_of_word rfl (by decide)

theorem encodesAs_of_decodeSystem (h : decodeSystem f7 rs2 rs1 f3 rd = some i) :
    EncodesAs c i (.full (word32 f7 rs2 rs1 f3 rd 0x73#7)) := by
  unfold decodeSystem at h
  split at h
  case h_1 => exact encodesAs_of_decodeSystem0 h
  case h_8 => cases h
  all_goals cases h; exact encodesAs_of_word rfl (encI_immI ..)

theorem encodesAs_of_decodeAmo (h : decodeAmo f7 rs2 rs1 f3 rd = some i) :
    EncodesAs c i (.full (word32 f7 rs2 rs1 f3 rd 0x2F#7)) := by
  unfold decodeAmo at h
  split at h
  case isFalse => cases h
  case isTrue hf3 =>
    subst hf3
    rw [← encA_funct7]
    dsimp only at h
    split at h
    case h_1 hf5 =>
      split at h
      case isTrue hz => cases h; rw [hf5, hz]; exact ⟨rfl, rfl⟩
      case isFalse => cases h
    case h_12 => cases h
    all_goals
      rename_i hf5
      cases h
      rw [hf5]
      exact ⟨rfl, rfl⟩

/-- A word that has a row is the encoding of the row's instruction. -/
theorem encodesAs_of_decode32 {w : Word} (h : decode32 w = some i) : EncodesAs c i (.full w) := by
  rw [← word32_fields w]
  unfold decode32 decodeFields at h
  generalize funct7Of w = f7, rs2Of w = rs2, rs1Of w = rs1, funct3Of w = f3, rdOf w = rd, opcodeOf w = op at h ⊢
  split at h
  case h_1 => cases h; exact encodesAs_of_word rfl (encU_immU ..)
  case h_2 => cases h; exact encodesAs_of_word rfl (encU_immU ..)
  case h_3 =>
    cases h
    refine encodesAs_of_word rfl (encJ_immJ ..) ?_
    show ((immJ f7 rs2 rs1 f3).extractLsb' 0 1 == 0#1) = true
    rw [immJ_even]
    rfl
  case h_4 =>
    split at h
    case isTrue hf3 => cases h; subst hf3; exact encodesAs_of_word rfl (encI_immI ..)
    case isFalse => cases h
  case h_5 => exact encodesAs_of_decodeBranch h
  case h_6 => exact encodesAs_of_decodeLoad h
  case h_7 => exact encodesAs_of_decodeStore h
  case h_8 => exact encodesAs_of_decodeOpImm h
  case h_9 => exact encodesAs_of_decodeOp h
  case h_10 => exact encodesAs_of_decodeMiscMem h
  case h_11 => exact encodesAs_of_decodeSystem h
  case h_12 => exact encodesAs_of_decodeAmo h
  case h_13 => cases h

end Rows32

section Rows16
variable {c : Config} {f3 : BitVec 3} {b12 : BitVec 1} {hi : BitVec 2} {ra : BitVec 3} {mid : BitVec 2} {rb : BitVec 3} {i : Instr}

theorem encodesAs_of_parcel {p p' : Half} (he : i.encode c = some (.half p)) (hp : p = p')
    (hf : i.wellFormed = true := by rfl) : EncodesAs c i (.half p') :=
  ⟨hp ▸ he, hf⟩

theorem encodesAs_of_decodeQ0 (h : decodeQ0 f3 b12 hi ra mid rb = some i) :
    EncodesAs c i (.half (word16 f3 b12 hi ra mid rb 0#2)) := by
  unfold decodeQ0 at h
  split at h
  case h_1 =>
    split at h
    case isTrue => cases h
    case isFalse hne =>
      cases h
      exact encodesAs_of_parcel rfl (encCIW_cimm ..) (by simp [Instr.wellFormed, cimmAddi4spn_low, hne])
  case h_4 => cases h
  all_goals
    cases h
    exact encodesAs_of_parcel rfl (encCL_cimmLw ..) (by simp [Instr.wellFormed, cimmLw_low])

theorem encodesAs_of_decodeQ1Alu (h : decodeQ1Alu b12 hi ra mid rb = some i) :
    EncodesAs c i (.half (word16 4#3 b12 hi ra mid rb 1#2)) := by
  unfold decodeQ1Alu at h
  split at h
  case h_1 | h_2 =>
    split at h
    case isTrue hz => cases h; subst hz; exact encodesAs_of_parcel rfl (by rw [encCShift, regHi_reg5, regLo_reg5])
    case isFalse => cases h
  case h_3 =>
    cases h
    refine encodesAs_of_parcel rfl ?_
    congr 1 <;> (ext i h; interval_cases i <;> simp [cimm6, fieldAt])
  case h_4 h0 h1 h2 =>
    obtain rfl : hi = 3#2 := by revert hi; decide
    split at h
    case isFalse => cases h
    case isTrue hz =>
      subst hz
      split at h
      case h_4 h0 h1 h2 =>
        obtain rfl : mid = 3#2 := by revert mid; decide
        cases h; exact ⟨rfl, rfl⟩
      all_goals cases h; exact ⟨rfl, rfl⟩

theorem encodesAs_of_decodeQ1 (h : decodeQ1 f3 b12 hi ra mid rb = some i) :
    EncodesAs c i (.half (word16 f3 b12 hi ra mid rb 1#2)) := by
  unfold decodeQ1 at h
  split at h
  case h_1 =>
    rw [← encCI_cimm6]
    split at h
    case isTrue hrd => cases h; rw [hrd]; exact ⟨rfl, rfl⟩
    case isFalse hrd => cases h; exact ⟨rfl, by simpa [Instr.wellFormed] using hrd⟩
  case h_2 => cases h; exact encodesAs_of_parcel rfl (encCJ_cimmJ ..) (by simp [Instr.wellFormed, cimmJ_low])
  case h_3 => cases h; exact encodesAs_of_parcel rfl (encCI_cimm6 ..)
  case h_4 =>
    split at h
    case isTrue hrd =>
      split at h
      case isTrue => cases h
      case isFalse hne =>
        cases h
        exact encodesAs_of_parcel rfl (encCAddi16sp_cimm _ _ _ _ _ hrd) (by simp [Instr.wellFormed, cimmAddi16sp_low, hne])
    case isFalse hrd =>
      split at h
      case isTrue => cases h
      case isFalse hne => cases h; exact encodesAs_of_parcel rfl (encCI_cimm6 ..) (by simp [Instr.wellFormed, hrd, hne])
  case h_5 => exact encodesAs_of_decodeQ1Alu h
  case h_6 => cases h; exact encodesAs_of_parcel rfl (encCJ_cimmJ ..) (by simp [Instr.wellFormed, cimmJ_low])
  case h_7 => cases h; exact encodesAs_of_parcel rfl (encCB_cimmB ..) (by simp [Instr.wellFormed, cimmB_low])
  case h_8 h0 h1 h2 h3 h4 h5 h6 =>
    obtain rfl : f3 = 7#3 := by revert f3; decide
    cases h
    exact encodesAs_of_parcel rfl (encCB_cimmB ..) (by simp [Instr.wellFormed, cimmB_low])

theorem encCR_reg5 : encCR b12 (reg5 hi ra) (reg5 mid rb) = word16 4#3 b12 hi ra mid rb 2#2 := by
  rw [encCR, regHi_reg5, regLo_reg5, regHi_reg5, regLo_reg5]

theorem encodesAs_of_decodeQ2 (h : decodeQ2 f3 b12 hi ra mid rb = some i) :
    EncodesAs c i (.half (word16 f3 b12 hi ra mid rb 2#2)) := by
  unfold decodeQ2 at h
  split at h
  case h_1 =>
    split at h
    case isTrue hz =>
      cases h; subst hz
      exact encodesAs_of_parcel rfl (by rw [regHi_reg5, regLo_reg5, regHi_reg5, regLo_reg5])
    case isFalse => cases h
  case h_2 =>
    split at h
    case isTrue => cases h
    case isFalse hrd =>
      cases h; exact encodesAs_of_parcel rfl (encCLwsp_cimm ..) (by simp [Instr.wellFormed, cimmLwsp_low, hrd])
  case h_3 =>
    rw [← encCR_reg5]
    split at h
    case isTrue hz =>
      subst hz
      split at h
      case isTrue hrs2 =>
        rw [hrs2]
        split at h
        case isTrue => cases h
        case isFalse hrd => cases h; exact ⟨rfl, by simpa [Instr.wellFormed] using hrd⟩
      case isFalse hrs2 => cases h; exact ⟨rfl, by simpa [Instr.wellFormed] using hrs2⟩
    case isFalse hz =>
      obtain rfl : b12 = 1#1 := by revert b12; decide
      split at h
      case isTrue hrs2 =>
        rw [hrs2]
        split at h
        case isTrue hrd => cases h; rw [hrd]; exact ⟨rfl, rfl⟩
        case isFalse hrd => cases h; exact ⟨rfl, by simpa [Instr.wellFormed] using hrd⟩
      case isFalse hrs2 => cases h; exact ⟨rfl, by simpa [Instr.wellFormed] using hrs2⟩
  case h_4 => cases h; exact encodesAs_of_parcel rfl (encCSwsp_cimm ..) (by simp [Instr.wellFormed, cimmSwsp_low])
  case h_5 => cases h

/-- A parcel that has a row is the encoding of the row's instruction. -/
theorem encodesAs_of_decode16 {p : Half} (h : decode16 p = some i) : EncodesAs c i (.half p) := by
  rw [← word16_fields p]
  unfold decode16 decodeFields16 at h
  generalize p.extractLsb' 13 3 = f3, p.extractLsb' 12 1 = b12, p.extractLsb' 10 2 = hi, p.extractLsb' 7 3 = ra,
    p.extractLsb' 5 2 = mid, p.extractLsb' 2 3 = rb, p.extractLsb' 0 2 = op at h ⊢
  split at h
  case h_1 => exact encodesAs_of_decodeQ0 h
  case h_2 => exact encodesAs_of_decodeQ1 h
  case h_3 => exact encodesAs_of_decodeQ2 h
  case h_4 => cases h

end Rows16

/-! ### From the decoder's answer to the row -/

/-- The row of the opcode table that fetched bits match, all members' rows together. -/
def tableRow : Fetched → Option Instr
  | .half p => decode16 p
  | .full w => decode32 w

theorem encodesAs_of_tableRow {c : Config} {f : Fetched} {i : Instr} (h : tableRow f = some i) : EncodesAs c i f := by
  cases f with
  | half p => exact encodesAs_of_decode16 h
  | full w => exact encodesAs_of_decode32 h

theorem decodeRow_of_decode {c : Config} {f : Fetched} {i : Instr} (h : decode c f = .instr i) : decodeRow c f = some i := by
  unfold decode at h
  split at h
  · cases h
  · split at h
    case h_1 j hj => cases h; exact hj
    case h_2 => split at h <;> cases h

theorem XwRow.instr_isXw (row : XwRow) (p : Half) : (row.instr p).isXw = true := by
  unfold XwRow.instr; split <;> rfl

/-- A row of a parcel is one of the table, or a supplied XW row. -/
theorem tableRow_of_decodeRow {c : Config} {f : Fetched} {i : Instr} (h : decodeRow c f = some i) (hx : i.isXw = false) :
    tableRow f = some i ∧ i.onMember c = true := by
  cases f with
  | full w => exact Option.filter_eq_some_iff.mp h
  | half p =>
    obtain ⟨m, hm, rfl⟩ := Option.map_eq_some_iff.mp h
    obtain ⟨ht, -⟩ | ⟨hd, -⟩ := RowMatch.denser_eq_some hm
    · obtain ⟨ht, hmem⟩ := Option.filter_eq_some_iff.mp ht
      obtain ⟨j, hj, rfl⟩ := Option.map_eq_some_iff.mp ht
      exact ⟨hj, hmem⟩
    · obtain ⟨hd, -⟩ := Option.filter_eq_some_iff.mp hd
      obtain ⟨⟨row, -, -, rfl⟩, -⟩ := decodeXw_eq_some hd
      rw [row.instr_isXw p] at hx
      cases hx

/-- Settles O20: the answer is a row of the table, and each row's fields are the bits again. -/
theorem encodeOfDecode : Obligations.EncodeOfDecode := by
  intro c f i h hx
  obtain ⟨hrow, hmem⟩ := tableRow_of_decodeRow (decodeRow_of_decode h) hx
  obtain ⟨henc, hwf⟩ := encodesAs_of_tableRow (c := c) hrow
  exact ⟨henc, hwf, hmem⟩

/-! ### From the instruction's bits to its row

One lemma for each format: the decoder reads the fields, and with them the immediate that was encoded. -/

section Formats32
variable {f3 : BitVec 3} {rd rs1 rs2 : Reg} {op : BitVec 7} {i : Instr}

theorem tableRow_encI {imm : BitVec 12} (h : ∀ f7 rs2, immI f7 rs2 = imm → decodeFields f7 rs2 rs1 f3 rd op = some i) :
    tableRow (.full (encI f3 op rd rs1 imm)) = some i := by
  rw [tableRow, encI, decode32_word32, h _ _ (immI_parts imm)]

theorem tableRow_encS {imm : BitVec 12} (h : ∀ f7 rd, immI f7 rd = imm → decodeFields f7 rs2 rs1 f3 rd op = some i) :
    tableRow (.full (encS f3 op rs2 rs1 imm)) = some i := by
  rw [tableRow, encS, decode32_word32, h _ _ (immI_parts imm)]

theorem tableRow_encU {imm : BitVec 20}
    (h : ∀ f7 rs2 rs1 f3, immU f7 rs2 rs1 f3 = imm → decodeFields f7 rs2 rs1 f3 rd op = some i) :
    tableRow (.full (encU op rd imm)) = some i := by
  rw [tableRow, encU, decode32_word32, h _ _ _ _ (immU_parts imm)]

theorem tableRow_encJ {imm : BitVec 21} (hwf : (imm.extractLsb' 0 1 == 0#1) = true)
    (h : ∀ f7 rs2 rs1 f3, immJ f7 rs2 rs1 f3 = imm → decodeFields f7 rs2 rs1 f3 rd op = some i) :
    tableRow (.full (encJ op rd imm)) = some i := by
  rw [tableRow, encJ, decode32_word32, h _ _ _ _ (immJ_parts (beq_iff_eq.mp hwf))]

theorem tableRow_encB {imm : BitVec 13} (hwf : (imm.extractLsb' 0 1 == 0#1) = true)
    (h : ∀ f7 rd, immB f7 rd = imm → decodeFields f7 rs2 rs1 f3 rd op = some i) :
    tableRow (.full (encB f3 op rs1 rs2 imm)) = some i := by
  rw [tableRow, encB, decode32_word32, h _ _ (immB_parts (beq_iff_eq.mp hwf))]

/-- `decodeAmo` looks at `funct5` alone of `funct7`, and keeps the two ordering bits. -/
theorem tableRow_encA {f5 : BitVec 5} {aq rl : BitVec 1}
    (h : ∀ f7 : BitVec 7, f7.extractLsb' 2 5 = f5 → f7.extractLsb' 1 1 = aq → f7.extractLsb' 0 1 = rl →
      decodeAmo f7 rs2 rs1 2#3 rd = some i) :
    tableRow (.full (encA f5 rd rs2 rs1 aq rl)) = some i := by
  obtain ⟨hf5, haq, hrl⟩ := funct7_amo f5 aq rl
  rw [tableRow, encA, decode32_word32]
  exact h _ hf5 haq hrl

end Formats32

section Formats16
variable {f3 : BitVec 3} {r r' : CReg} {rd rs2 : Reg} {op : BitVec 2} {i : Instr}

theorem tableRow_word16 (f3 : BitVec 3) (b12 : BitVec 1) (hi : BitVec 2) (ra : BitVec 3) (mid : BitVec 2) (rb : BitVec 3)
    (op : BitVec 2) : tableRow (.half (word16 f3 b12 hi ra mid rb op)) = decodeFields16 f3 b12 hi ra mid rb op :=
  decode16_word16 ..

theorem tableRow_encCI {imm : BitVec 6}
    (h : ∀ hi ra b12 mid rb, reg5 hi ra = rd → cimm6 b12 mid rb = imm → decodeFields16 f3 b12 hi ra mid rb op = some i) :
    tableRow (.half (encCI f3 op rd imm)) = some i := by
  rw [encCI, tableRow_word16, h _ _ _ _ _ (reg5_parts rd) (cimm6_parts imm)]

theorem tableRow_encCR {b12 : BitVec 1}
    (h : ∀ hi ra mid rb, reg5 hi ra = rd → reg5 mid rb = rs2 → decodeQ2 4#3 b12 hi ra mid rb = some i) :
    tableRow (.half (encCR b12 rd rs2)) = some i := by
  rw [encCR, tableRow_word16]
  exact h _ _ _ _ (reg5_parts rd) (reg5_parts rs2)

theorem tableRow_encCL {imm : BitVec 7} (hwf : (imm.extractLsb' 0 2 == 0#2) = true)
    (h : ∀ b12 hi mid, cimmLw b12 hi mid = imm → decodeQ0 f3 b12 hi r' mid r = some i) :
    tableRow (.half (encCL f3 r r' imm)) = some i := by
  rw [encCL, tableRow_word16]
  exact h _ _ _ (cimmLw_parts (beq_iff_eq.mp hwf))

theorem tableRow_encCIW {imm : BitVec 10} (hlow : imm.extractLsb' 0 2 = 0#2)
    (h : ∀ b12 hi ra mid, cimmAddi4spn b12 hi ra mid = imm → decodeQ0 0#3 b12 hi ra mid r = some i) :
    tableRow (.half (encCIW r imm)) = some i := by
  rw [encCIW, tableRow_word16]
  exact h _ _ _ _ (cimmAddi4spn_parts hlow)

theorem tableRow_encCJ {imm : BitVec 12} (hwf : (imm.extractLsb' 0 1 == 0#1) = true)
    (h : ∀ b12 hi ra mid rb, cimmJ b12 hi ra mid rb = imm → decodeQ1 f3 b12 hi ra mid rb = some i) :
    tableRow (.half (encCJ f3 imm)) = some i := by
  rw [encCJ, tableRow_word16]
  exact h _ _ _ _ _ (cimmJ_parts (beq_iff_eq.mp hwf))

theorem tableRow_encCB {imm : BitVec 9} (hwf : (imm.extractLsb' 0 1 == 0#1) = true)
    (h : ∀ b12 hi mid rb, cimmB b12 hi mid rb = imm → decodeQ1 f3 b12 hi r mid rb = some i) :
    tableRow (.half (encCB f3 r imm)) = some i := by
  rw [encCB, tableRow_word16]
  exact h _ _ _ _ (cimmB_parts (beq_iff_eq.mp hwf))

theorem tableRow_encCAddi16sp {imm : BitVec 10} (hlow : imm.extractLsb' 0 4 = 0#4)
    (h : ∀ b12 mid rb, cimmAddi16sp b12 mid rb = imm → decodeQ1 3#3 b12 0#2 2#3 mid rb = some i) :
    tableRow (.half (encCAddi16sp imm)) = some i := by
  rw [encCAddi16sp, tableRow_word16]
  exact h _ _ _ (cimmAddi16sp_parts hlow)

theorem tableRow_encCLwsp {imm : BitVec 8} (hlow : imm.extractLsb' 0 2 = 0#2)
    (h : ∀ b12 hi ra mid rb, reg5 hi ra = rd → cimmLwsp b12 mid rb = imm → decodeQ2 2#3 b12 hi ra mid rb = some i) :
    tableRow (.half (encCLwsp rd imm)) = some i := by
  rw [encCLwsp, tableRow_word16]
  exact h _ _ _ _ _ (reg5_parts rd) (cimmLwsp_parts hlow)

theorem tableRow_encCSwsp {imm : BitVec 8} (hwf : (imm.extractLsb' 0 2 == 0#2) = true)
    (h : ∀ b12 hi ra mid rb, reg5 mid rb = rs2 → cimmSwsp b12 hi ra = imm → decodeQ2 6#3 b12 hi ra mid rb = some i) :
    tableRow (.half (encCSwsp rs2 imm)) = some i := by
  rw [encCSwsp, tableRow_word16]
  exact h _ _ _ _ _ (reg5_parts rs2) (cimmSwsp_parts (beq_iff_eq.mp hwf))

end Formats16

/-- The bits of a well-formed instruction match its row of the table. -/
theorem tableRow_of_encode (c : Config) {i : Instr} (hwf : i.wellFormed = true) (hx : i.isXw = false) :
    ∃ f, i.encode c = some f ∧ tableRow f = some i := by
  cases i
  case lui | auipc => exact ⟨_, rfl, tableRow_encU fun _ _ _ _ himm => himm ▸ rfl⟩
  case jal => exact ⟨_, rfl, tableRow_encJ hwf fun _ _ _ _ himm => himm ▸ rfl⟩
  case beq | bne | blt | bge | bltu | bgeu => exact ⟨_, rfl, tableRow_encB hwf fun _ _ himm => himm ▸ rfl⟩
  case sb | sh | sw => exact ⟨_, rfl, tableRow_encS fun _ _ himm => himm ▸ rfl⟩
  case jalr | lb | lh | lw | lbu | lhu | addi | slti | sltiu | xori | ori | andi | csrrw | csrrs | csrrc | csrrwi | csrrsi | csrrci
      | fenceI =>
    exact ⟨_, rfl, tableRow_encI fun _ _ himm => himm ▸ rfl⟩
  case fence fm pred succ rs1 rd =>
    obtain ⟨hfm, hpred, hsucc⟩ := fence_parts fm pred succ
    refine ⟨_, rfl, tableRow_encI fun f7 rs2 himm => ?_⟩
    rw [← himm] at hfm hpred hsucc
    show some (Instr.fence _ _ _ rs1 rd) = _
    rw [hfm, hpred, hsucc]
  case ecall | ebreak | mret | wfi => exact ⟨_, rfl, by decide⟩
  case lrW | scW | amoswapW | amoaddW | amoxorW | amoandW | amoorW | amominW | amomaxW | amominuW | amomaxuW =>
    exact ⟨_, rfl, tableRow_encA fun f7 hf5 haq hrl => by rw [decodeAmo, if_pos rfl, hf5, haq, hrl]; rfl⟩
  case cAddi4spn =>
    simp only [Instr.wellFormed, Bool.and_eq_true, beq_iff_eq, bne_iff_ne] at hwf
    obtain ⟨hlow, hne⟩ := hwf
    exact ⟨_, rfl, tableRow_encCIW hlow fun _ _ _ _ himm => by subst himm; exact if_neg hne⟩
  case cLw | cSw => exact ⟨_, rfl, tableRow_encCL hwf fun _ _ _ himm => himm ▸ rfl⟩
  case cNop => exact ⟨_, rfl, tableRow_encCI fun _ _ _ _ _ hrd himm => himm ▸ if_pos hrd⟩
  case cAddi =>
    have hne := bne_iff_ne.mp hwf
    exact ⟨_, rfl, tableRow_encCI fun _ _ _ _ _ hrd himm => by subst hrd himm; exact if_neg hne⟩
  case cLi => exact ⟨_, rfl, tableRow_encCI fun _ _ _ _ _ hrd himm => by subst hrd himm; rfl⟩
  case cLui =>
    simp only [Instr.wellFormed, Bool.and_eq_true, bne_iff_ne] at hwf
    obtain ⟨hne2, hne0⟩ := hwf
    exact ⟨_, rfl, tableRow_encCI fun _ _ _ _ _ hrd himm => by
      subst hrd himm; exact (if_neg hne2).trans (if_neg hne0)⟩
  case cJal | cJ => exact ⟨_, rfl, tableRow_encCJ hwf fun _ _ _ _ _ himm => himm ▸ rfl⟩
  case cAddi16sp =>
    simp only [Instr.wellFormed, Bool.and_eq_true, beq_iff_eq, bne_iff_ne] at hwf
    obtain ⟨hlow, hne⟩ := hwf
    exact ⟨_, rfl, tableRow_encCAddi16sp hlow fun _ _ _ himm => by subst himm; exact if_neg hne⟩
  case cSrli | cSrai | cSlli =>
    refine ⟨_, rfl, ?_⟩
    simp only [encCShift, tableRow_word16]
    simp [decodeFields16, decodeQ1, decodeQ1Alu, decodeQ2]
  case cAndi rd imm =>
    refine ⟨_, rfl, ?_⟩
    rw [tableRow_word16]
    exact congrArg (fun v => some (Instr.cAndi rd v)) (cimm6_parts imm)
  case cSub | cXor | cOr | cAnd => exact ⟨_, rfl, tableRow_word16 ..⟩
  case cBeqz | cBnez => exact ⟨_, rfl, tableRow_encCB hwf fun _ _ _ _ himm => himm ▸ rfl⟩
  case cLwsp =>
    simp only [Instr.wellFormed, Bool.and_eq_true, beq_iff_eq, bne_iff_ne] at hwf
    obtain ⟨hne, hlow⟩ := hwf
    exact ⟨_, rfl, tableRow_encCLwsp hlow fun _ _ _ _ _ hrd himm => by subst hrd himm; exact if_neg hne⟩
  case cSwsp => exact ⟨_, rfl, tableRow_encCSwsp hwf fun _ _ _ _ _ hrs2 himm => by subst hrs2 himm; rfl⟩
  case cJr | cJalr =>
    have hne := bne_iff_ne.mp hwf
    exact ⟨_, rfl, tableRow_encCR fun _ _ _ _ hrs1 hzero => by
      subst hrs1; exact (if_pos hzero).trans (if_neg hne)⟩
  case cMv | cAdd =>
    have hne := bne_iff_ne.mp hwf
    exact ⟨_, rfl, tableRow_encCR fun _ _ _ _ hrd hrs2 => by subst hrd hrs2; exact if_neg hne⟩
  case cEbreak => exact ⟨_, rfl, tableRow_encCR fun _ _ _ _ hrd hrs2 => (if_pos hrs2).trans (if_pos hrd)⟩
  case cLbu | cLhu | cSb | cSh | cLbusp | cLhusp | cSbsp | cShsp => cases hx
  all_goals exact ⟨_, rfl, decode32_word32 ..⟩

/-- The two words that are illegal on every member match no row. -/
theorem tableRow_of_alwaysIllegal {f : Fetched} (h : f.alwaysIllegal = true) : tableRow f = none := by
  cases f with
  | half p => rw [beq_iff_eq.mp h]; decide
  | full w => rw [beq_iff_eq.mp h]; decide

/-- Settles O19: the bits match the row they were written from, and no supplied row comes before it. -/
theorem decodeOfEncode : Obligations.DecodeOfEncode := by
  intro c i hwf hx hmem
  obtain ⟨f, henc, hrow⟩ := tableRow_of_encode c hwf hx
  refine ⟨f, henc, fun hkeep => ?_⟩
  have hlegal : f.alwaysIllegal ≠ true := fun h => by rw [tableRow_of_alwaysIllegal h] at hrow; cases hrow
  cases f with
  | full w => exact decode_full (fun hw => hlegal (beq_iff_eq.mpr hw)) hrow hmem
  | half p =>
    exact decode_half (fun hp => hlegal (beq_iff_eq.mpr hp)) hrow hmem
      ((hkeep p rfl).imp_right fun hall r hr hrm => (hall r hr hrm).le)

end Sys2Proof
end

section
/-! PROOFS. What an instruction is in the shared operations of the model: a load, a store, an atomic, or one that reaches no
memory. One case split over the instructions, which the statements about all of them share. -/

namespace Sys2Proof.Machine
open Sys2Proof

/-! ### The operation an instruction is -/

/-- `i` is a load into `rd` from `off` past the register `b`. -/
structure IsLoad (i : Instr) (rd b : Reg) (off : Word) (w : Width) (ext : Word → Word) (n : Word) : Prop where
  reads : ∀ s, loadsFrom s i = some (s.reg b + off, w)
  stores : ∀ s, storesTo s i = none
  exec_eq : ∀ s, exec i s = s.loadTo rd (s.reg b + off) w ext n
  feature : i.feature ≠ .a
  length : n = 2#32 ∨ n = 4#32

/-- `i` stores the register `src` to `off` past the register `b`. -/
structure IsStore (i : Instr) (src b : Reg) (off : Word) (w : Width) (n : Word) : Prop where
  reads : ∀ s, loadsFrom s i = none
  stores : ∀ s, storesTo s i = some (s.reg b + off, w)
  exec_eq : ∀ s, exec i s = s.storeFrom (s.reg b + off) w (s.reg src) n
  feature : i.feature ≠ .a
  length : n = 2#32 ∨ n = 4#32

/-- `i` is an AMO of the word at the register `b`, its new word `f` of the old one. -/
structure IsAmo (i : Instr) (rd b : Reg) (f : State → Word → Word) : Prop where
  reads : ∀ s, loadsFrom s i = none
  stores : ∀ s, storesTo s i = some (s.reg b, .word)
  exec_eq : ∀ s, exec i s = s.amo rd (s.reg b) (f s)
  feature : i.feature = .a
  notSc : ∀ rd rs2 rs1 aq rl, i ≠ .scW rd rs2 rs1 aq rl

/-- What an instruction does that reaches no memory. -/
inductive Plain (i : Instr) (s : State) : Prop
  | computes (rd : Reg) (v target : Word) (h : exec i s = .next ((s.setReg rd v).setPc target))
      (even : i.wellFormed = true → s.pc.getLsbD 0 = false → target.getLsbD 0 = false)
  | fence (h : exec i s = .next (State.advance { s.drainAll with unseen := [] } 4#32))
  | fenceI (h : exec i s = .next (State.advance { s with stale := [] } 4#32))
  | wfi (h : exec i s = .next (s.goToSleep.advance 4#32))
  | raises (e : Exc) (info : Word) (h : exec i s = s.raise e info)
  | breakpoint (h : exec i s = s.breakpoint)
  | csr (bits : Word) (rd : Reg) (a : CsrNum) (wr : Bool) (f : Word → Word) (h : exec i s = s.csrInstr bits rd a wr f)
  | mret (h : exec i s = execMret s)

/-- The kinds of instruction, by the memory they reach. -/
inductive OpKind (i : Instr) : Prop
  | load (rd b : Reg) (off : Word) (w : Width) (ext : Word → Word) (n : Word) (h : IsLoad i rd b off w ext n)
  | store (src b : Reg) (off : Word) (w : Width) (n : Word) (h : IsStore i src b off w n)
  | lr (rd rs1 : Reg) (aq rl : BitVec 1) (h : i = .lrW rd rs1 aq rl)
  | sc (rd rs2 rs1 : Reg) (aq rl : BitVec 1) (h : i = .scW rd rs2 rs1 aq rl)
  | amo (rd b : Reg) (f : State → Word → Word) (h : IsAmo i rd b f)
  | plain (reads : ∀ s, loadsFrom s i = none) (stores : ∀ s, storesTo s i = none) (h : ∀ s, Plain i s)

/-! ### Even addresses -/

theorem even_add {a b : Word} (ha : a.getLsbD 0 = false) (hb : b.getLsbD 0 = false) : (a + b).getLsbD 0 = false := by
  rw [BitVec.getLsbD_add (by decide), ha, hb]
  simp

theorem even_simm {n : Nat} {imm : BitVec n} (hn : 0 < n) (h : (imm.extractLsb' 0 1 == 0#1) = true) :
    (simm imm).getLsbD 0 = false := by
  have hbit : (imm.extractLsb' 0 1).getLsbD 0 = (0#1).getLsbD 0 := congrArg (BitVec.getLsbD · 0) (beq_iff_eq.mp h)
  rw [simm, BitVec.getLsbD_signExtend]
  simpa [hn] using hbit

theorem even_relative {n : Nat} {a : Word} {p : Prop} (imm : BitVec n) (hn : 0 < n)
    (h : p → (imm.extractLsb' 0 1 == 0#1) = true) : p → a.getLsbD 0 = false → (a + simm imm).getLsbD 0 = false :=
  fun hp ha => even_add ha (even_simm hn (h hp))

theorem even_evenTarget (v : Word) : (evenTarget v).getLsbD 0 = false := by
  simp [evenTarget]

theorem even_next {a n : Word} (ha : a.getLsbD 0 = false) (hn : n = 2#32 ∨ n = 4#32) : (a + n).getLsbD 0 = false :=
  even_add ha (by rcases hn with rfl | rfl <;> rfl)

/-! ### Instructions that reach no memory -/

section Plain
variable {i : Instr} {s : State} {rd : Reg} {v target n : Word}

theorem State.setReg_advance (s : State) (rd : Reg) (v n : Word) :
    (s.setReg rd v).advance n = (s.setReg rd v).setPc (s.pc + n) := by
  rw [State.advance, State.setReg_pc]; rfl

theorem Plain.of_writeBack (h : exec i s = s.writeBack rd v n) (hn : n = 2#32 ∨ n = 4#32) : Plain i s :=
  .computes rd v (s.pc + n) (by rw [h, State.writeBack, State.setReg_advance]) fun _ hpc => even_next hpc hn

theorem Plain.of_jumpLink (h : exec i s = s.jumpLink rd target n)
    (even : i.wellFormed = true → s.pc.getLsbD 0 = false → target.getLsbD 0 = false) : Plain i s :=
  .computes rd (s.pc + n) target h even

theorem Plain.of_setPc (h : exec i s = .next (s.setPc target))
    (even : i.wellFormed = true → s.pc.getLsbD 0 = false → target.getLsbD 0 = false) : Plain i s :=
  .computes 0#5 0#32 target h even

theorem Plain.of_branch {b : Bool} (h : exec i s = s.branch b v n) (hn : n = 2#32 ∨ n = 4#32)
    (even : i.wellFormed = true → v.getLsbD 0 = false) : Plain i s := by
  refine .of_setPc (target := if b then s.pc + v else s.pc + n) (by rw [h, State.branch_effect]; rfl) fun hwf hpc => ?_
  cases b with
  | true => exact even_add hpc (even hwf)
  | false => exact even_next hpc hn

end Plain

theorem OpKind.of_amo {i : Instr} (rd b : Reg) (f : State → Word → Word) (he : ∀ s, exec i s = s.amo rd (s.reg b) (f s))
    (hl : ∀ s, loadsFrom s i = none) (hs : ∀ s, storesTo s i = some (s.reg b, .word)) (hf : i.feature = .a)
    (hsc : ∀ rd rs2 rs1 aq rl, i ≠ .scW rd rs2 rs1 aq rl) : OpKind i :=
  .amo rd b f ⟨hl, hs, he, hf, hsc⟩

/-- The one case split over all instructions. -/
theorem opKind (i : Instr) : OpKind i := by
  have two : (2#32 : Word) = 2#32 ∨ (2#32 : Word) = 4#32 := .inl rfl
  have four : (4#32 : Word) = 2#32 ∨ (4#32 : Word) = 4#32 := .inr rfl
  cases i
  case lb | lh | lw | lbu | lhu =>
    exact .load _ _ _ _ _ _ ⟨fun _ => rfl, fun _ => rfl, fun _ => rfl, Feature.noConfusion, four⟩
  case cLw | cLwsp | cLbu | cLhu | cLbusp | cLhusp =>
    exact .load _ _ _ _ _ _ ⟨fun _ => rfl, fun _ => rfl, fun _ => rfl, Feature.noConfusion, two⟩
  case sb | sh | sw =>
    exact .store _ _ _ _ _ ⟨fun _ => rfl, fun _ => rfl, fun _ => rfl, Feature.noConfusion, four⟩
  case cSw | cSwsp | cSb | cSh | cSbsp | cShsp =>
    exact .store _ _ _ _ _ ⟨fun _ => rfl, fun _ => rfl, fun _ => rfl, Feature.noConfusion, two⟩
  case lrW => exact .lr _ _ _ _ rfl
  case scW => exact .sc _ _ _ _ _ rfl
  case amoswapW rd rs2 rs1 _ _ => exact .of_amo rd rs1 (fun s _ => s.reg rs2) (fun _ => rfl) (fun _ => rfl) (fun _ => rfl) rfl nofun
  case amoaddW rd rs2 rs1 _ _ => exact .of_amo rd rs1 (fun s t => t + s.reg rs2) (fun _ => rfl) (fun _ => rfl) (fun _ => rfl) rfl nofun
  case amoxorW rd rs2 rs1 _ _ => exact .of_amo rd rs1 (fun s t => t ^^^ s.reg rs2) (fun _ => rfl) (fun _ => rfl) (fun _ => rfl) rfl nofun
  case amoandW rd rs2 rs1 _ _ => exact .of_amo rd rs1 (fun s t => t &&& s.reg rs2) (fun _ => rfl) (fun _ => rfl) (fun _ => rfl) rfl nofun
  case amoorW rd rs2 rs1 _ _ => exact .of_amo rd rs1 (fun s t => t ||| s.reg rs2) (fun _ => rfl) (fun _ => rfl) (fun _ => rfl) rfl nofun
  case amominW rd rs2 rs1 _ _ => exact .of_amo rd rs1 (fun s t => minSigned t (s.reg rs2)) (fun _ => rfl) (fun _ => rfl) (fun _ => rfl) rfl nofun
  case amomaxW rd rs2 rs1 _ _ => exact .of_amo rd rs1 (fun s t => maxSigned t (s.reg rs2)) (fun _ => rfl) (fun _ => rfl) (fun _ => rfl) rfl nofun
  case amominuW rd rs2 rs1 _ _ => exact .of_amo rd rs1 (fun s t => minUnsigned t (s.reg rs2)) (fun _ => rfl) (fun _ => rfl) (fun _ => rfl) rfl nofun
  case amomaxuW rd rs2 rs1 _ _ => exact .of_amo rd rs1 (fun s t => maxUnsigned t (s.reg rs2)) (fun _ => rfl) (fun _ => rfl) (fun _ => rfl) rfl nofun
  case jal rd imm | cJal imm =>
    exact .plain (fun _ => rfl) (fun _ => rfl) fun _ => .of_jumpLink rfl (even_relative imm (by decide) id)
  case jalr | cJalr => exact .plain (fun _ => rfl) (fun _ => rfl) fun _ => .of_jumpLink rfl fun _ _ => even_evenTarget _
  case cJ imm => exact .plain (fun _ => rfl) (fun _ => rfl) fun _ => .of_setPc rfl (even_relative imm (by decide) id)
  case cJr => exact .plain (fun _ => rfl) (fun _ => rfl) fun _ => .of_setPc rfl fun _ _ => even_evenTarget _
  case cNop => exact .plain (fun _ => rfl) (fun _ => rfl) fun _ => .of_setPc rfl fun _ hpc => even_next hpc two
  case beq | bne | blt | bge | bltu | bgeu =>
    exact .plain (fun _ => rfl) (fun _ => rfl) fun _ => .of_branch rfl four (even_simm (by decide))
  case cBeqz | cBnez =>
    exact .plain (fun _ => rfl) (fun _ => rfl) fun _ => .of_branch rfl two (even_simm (by decide))
  case fence => exact .plain (fun _ => rfl) (fun _ => rfl) fun _ => .fence rfl
  case fenceI => exact .plain (fun _ => rfl) (fun _ => rfl) fun _ => .fenceI rfl
  case wfi => exact .plain (fun _ => rfl) (fun _ => rfl) fun _ => .wfi rfl
  case mret => exact .plain (fun _ => rfl) (fun _ => rfl) fun _ => .mret rfl
  case ecall => exact .plain (fun _ => rfl) (fun _ => rfl) fun _ => .raises _ _ rfl
  case ebreak | cEbreak => exact .plain (fun _ => rfl) (fun _ => rfl) fun _ => .breakpoint rfl
  case csrrw => exact .plain (fun _ => rfl) (fun _ => rfl) fun _ => .csr _ _ _ _ _ (exec_csrrw ..)
  case csrrs => exact .plain (fun _ => rfl) (fun _ => rfl) fun _ => .csr _ _ _ _ _ (exec_csrrs ..)
  case csrrc => exact .plain (fun _ => rfl) (fun _ => rfl) fun _ => .csr _ _ _ _ _ (exec_csrrc ..)
  case csrrwi => exact .plain (fun _ => rfl) (fun _ => rfl) fun _ => .csr _ _ _ _ _ (exec_csrrwi ..)
  case csrrsi => exact .plain (fun _ => rfl) (fun _ => rfl) fun _ => .csr _ _ _ _ _ (exec_csrrsi ..)
  case csrrci => exact .plain (fun _ => rfl) (fun _ => rfl) fun _ => .csr _ _ _ _ _ (exec_csrrci ..)
  case cAddi4spn | cAddi | cLi | cAddi16sp | cLui | cSrli | cSrai | cAndi | cSub | cXor | cOr | cAnd | cSlli | cMv | cAdd =>
    exact .plain (fun _ => rfl) (fun _ => rfl) fun _ => .of_writeBack rfl two
  all_goals exact .plain (fun _ => rfl) (fun _ => rfl) fun _ => .of_writeBack rfl four

end Sys2Proof.Machine
end

section
/-! PROOFS. The next states of an instruction, one lemma for each operation it can be: it completes with a change of data
alone, traps from there, enters or leaves debug mode or a handler, writes a CSR, or resets the system. -/

namespace Sys2Proof.Machine
open Sys2Proof

/-! ### A change of data -/

/-- Only registers, memory with its records, the reservation, sleep and the core's devices differ. -/
def DataOnly (s d : State) : Prop :=
  d =
    { s with
      regs := d.regs
      mem := d.mem
      stale := d.stale
      unseen := d.unseen
      reservation := d.reservation
      sleep := d.sleep
      eventPending := d.eventPending
      pfic := d.pfic
      stk := d.stk
      dm := { s.dm with data0 := d.dm.data0, data1 := d.dm.data1 }
      deviceQueue := d.deviceQueue
      draws := d.draws }

/-- The part of an instruction that moves data: no byte outside `as` changes, and the invariants of memory and of the
interrupt bits stay. -/
structure DataStep (as : List Word) (s d : State) : Prop where
  only : DataOnly s d
  frame : ∀ b : Word, b ∉ as → d.byteAt b = s.byteAt b
  wf : Memory.wf s.mem = true → Memory.wf d.mem = true
  reserved : ReservedClear s.pfic → ReservedClear d.pfic

section DataStep
variable {as : List Word} {s d e : State}

theorem DataOnly.trans (h : DataOnly s d) (h' : DataOnly d e) : DataOnly s e := by
  unfold DataOnly at *; rw [h', h]

theorem DeviceOnly.dataOnly (h : DeviceOnly s d) : DataOnly s d := by
  unfold DeviceOnly at h; unfold DataOnly; rw [h]

theorem StoreOnly.dataOnly (h : StoreOnly s d) : DataOnly s d := by
  unfold StoreOnly at h; unfold DataOnly; rw [h]

theorem DataOnly.setReg (h : DataOnly s d) (rd : Reg) (v : Word) : DataOnly s (d.setReg rd v) := by
  refine h.trans ?_
  unfold DataOnly State.setReg
  split <;> rfl

theorem DeviceOnly.mem_eq (h : DeviceOnly s d) : d.mem = s.mem := by unfold DeviceOnly at h; rw [h]
theorem StoreOnly.pfic_eq (h : StoreOnly s d) : d.pfic = s.pfic := by unfold StoreOnly at h; rw [h]

theorem State.byteAt_congr (h : d.mem = s.mem) (b : Word) : d.byteAt b = s.byteAt b :=
  congrArg (Memory.get · b.toNat) h

theorem DataStep.of_same (ho : DataOnly s d) (hm : d.mem = s.mem) (hp : d.pfic = s.pfic) : DataStep as s d :=
  ⟨ho, fun b _ => State.byteAt_congr hm b, fun h => hm ▸ h, fun h => hp ▸ h⟩

theorem DataStep.refl (as : List Word) (s : State) : DataStep as s s := .of_same rfl rfl rfl

theorem DataStep.drawn (as : List Word) (s : State) : DataStep as s s.drawn := .of_same rfl rfl rfl

theorem DataStep.of_drawn (h : d = s ∨ d = s.drawn) : DataStep as s d := by
  rcases h with rfl | rfl
  · exact .refl as _
  · exact .drawn as _

theorem DataStep.setReg (h : DataStep as s d) (rd : Reg) (v : Word) : DataStep as s (d.setReg rd v) :=
  ⟨h.only.setReg rd v, fun b hb => (State.byteAt_congr (d.setReg_mem rd v) b).trans (h.frame b hb),
    fun hm => (d.setReg_mem rd v).symm ▸ h.wf hm, fun hr => (d.setReg_pfic rd v).symm ▸ h.reserved hr⟩

theorem DataStep.trans (h : DataStep as s d) (h' : DataStep as d e) : DataStep as s e :=
  ⟨h.only.trans h'.only, fun b hb => (h'.frame b hb).trans (h.frame b hb), fun hm => h'.wf (h.wf hm),
    fun hr => h'.reserved (h.reserved hr)⟩

theorem DataStep.of_device (h : DeviceOnly s d) (hr : ReservedClear s.pfic → ReservedClear d.pfic) : DataStep as s d :=
  ⟨h.dataOnly, fun b _ => State.byteAt_congr h.mem_eq b, fun hm => h.mem_eq ▸ hm, hr⟩

theorem State.drainAll_data (as : List Word) (s : State) : DataStep as s s.drainAll :=
  .of_device s.drainAll_device State.drainAll_reserved

end DataStep

/-! ### Loads -/

section Load
variable {s t : State} {rd : Reg} {a v n : Word} {w : Width} {ext : Word → Word} {as : List Word}

theorem State.loadAligned_data (h : s.loadAligned a w = .ok (v, t)) : DataStep as s t :=
  .of_device (State.loadAligned_device h) (State.loadAligned_reserved h)

theorem State.load_data (h : s.load a w = .ok (v, t)) : DataStep as s t :=
  .of_device (State.load_device h) (State.load_reserved h)

/-- How an operation that moves data ends in a next state: the pc moves on by `n`, or an exception is raised. -/
def DataEnds (as : List Word) (n : Word) (s t : State) : Prop :=
  ∃ d, DataStep as s d ∧ (t = d.advance n ∨ ∃ e info, d.raise e info = .next t)

theorem DataEnds.advance {d : State} (h : DataStep as s d) : DataEnds as n s (d.advance n) := ⟨d, h, .inl rfl⟩

theorem DataEnds.raise {d : State} {e : Exc} {info : Word} (h : DataStep as s d) (hr : d.raise e info = .next t) :
    DataEnds as n s t := ⟨d, h, .inr ⟨e, info, hr⟩⟩

theorem DataEnds.writeBack {d : State} (h : DataStep as s d) (hw : d.writeBack rd v n = .next t) : DataEnds as n s t := by
  cases hw
  exact .advance (h.setReg rd v)

theorem State.loadStop_ends {x : Stop} (hx : ∀ u, x ≠ .restart u) (h : s.loadStop rd x = .next t) : DataEnds as n s t := by
  unfold State.loadStop at h
  split at h
  · exact .raise ((DataStep.drawn as s).setReg rd _) h
  · cases x with
    | exn e info => exact .raise (.refl as s) h
    | fault f => cases h
    | refused r => cases h
    | restart u => exact absurd rfl (hx u)

/-- A data breakpoint is raised before the access or after it. -/
theorem State.dataBreakpoint_raise {o : Option State} (h : s.dataBreakpoint o = .next t) :
    ∃ d, (d = s ∨ d = s.drawn ∨ ∃ u, o = some u ∧ d = u.drawn) ∧ d.raise .breakpoint s.pc = .next t := by
  unfold State.dataBreakpoint at h
  split at h
  · exact ⟨s, .inl rfl, h⟩
  · rename_i u
    by_cases hf : Config.freeBool s.draws = true
    · rw [if_pos hf] at h
      exact ⟨u.drawn, .inr (.inr ⟨u, rfl, rfl⟩), h⟩
    · rw [if_neg hf] at h
      exact ⟨s.drawn, .inr (.inl rfl), h⟩

theorem State.loadTo_ends (h : s.loadTo rd a w ext n = .next t) : DataEnds as n s t := by
  unfold State.loadTo at h
  split at h
  case h_1 => cases h
  case h_2 =>
    obtain ⟨d, hd, hr⟩ := State.dataBreakpoint_raise h
    refine .raise ?_ hr
    rcases hd with rfl | rfl | ⟨u, hu, rfl⟩
    · exact .refl as _
    · exact .drawn as _
    · cases hl : s.load a w with
      | ok p =>
        rw [hl] at hu
        cases hu
        exact ((State.load_data hl).setReg rd _).trans (.drawn as _)
      | error x => rw [hl] at hu; cases hu
  case h_3 =>
    cases hl : s.load a w with
    | ok p => rw [hl] at h; exact .writeBack (State.load_data hl) h
    | error x =>
      rw [hl] at h
      exact State.loadStop_ends (fun u hu => State.load_noRestart s a w u (hu ▸ hl)) h

theorem State.loadReserved_ends (h : s.loadReserved rd a = .next t) : DataEnds as 4#32 s t := by
  unfold State.loadReserved at h
  split at h
  · exact .raise (.refl as s) h
  · split at h
    · cases h
    · cases hl : s.loadAligned a .word with
      | ok p =>
        rw [hl] at h
        have hres : DataStep as p.2 { p.2 with reservation := some a } := .of_same rfl rfl rfl
        exact .writeBack ((State.loadAligned_data hl).trans hres) h
      | error x =>
        rw [hl] at h
        exact State.loadStop_ends (fun u hu => State.loadAligned_noRestart s a .word u (hu ▸ hl)) h

end Load

/-! ### Stores -/

section Store
variable {s t : State} {rd : Reg} {a v n : Word} {w : Width}

/-- A store that completes changes no byte outside its addresses, and memory stays canonical. -/
theorem State.storeAligned_data {as : List Word} (has : ∀ b ∈ w.addrs a, b ∈ as) (h : s.storeAligned a w v = .ok t) :
    DataStep as s t := by
  refine ⟨(State.storeAligned_only h).dataOnly, fun b hb => ?_, State.storeAligned_wf h,
    fun hr => (State.storeAligned_only h).pfic_eq ▸ hr⟩
  rcases State.storeAligned_cases h with ⟨_, rfl⟩ | ⟨_, rfl⟩
  · rfl
  · rw [State.byteAt_setBytes_other _ _ _ _ fun hm => hb (has b hm)]
    exact State.byteAt_congr (State.storeClears_mem s a) b

theorem State.storeBytes_data {bs : List Byte} (as as' : List Word) (has : ∀ b ∈ as, b ∈ as') (h : s.storeBytes as bs = .ok t) :
    DataStep as' s t := by
  induction as generalizing s bs with
  | nil => cases bs <;> (cases h; exact .refl as' _)
  | cons a as ih =>
    cases bs with
    | nil => cases h; exact .refl as' _
    | cons b bs =>
      unfold State.storeBytes at h
      cases h1 : s.storeAligned a .byte (b.setWidth 32) with
      | error e => rw [h1] at h; cases h
      | ok s1 =>
        rw [h1] at h
        have hone : DataStep as' s s1 :=
          State.storeAligned_data (fun c hc => has c (by simp [Width.addrs] at hc; simp [hc])) h1
        exact hone.trans (ih (fun c hc => has c (List.mem_cons_of_mem a hc)) h)

theorem State.store_data (h : s.store a w v = .ok t) : DataStep (w.addrs a) s t := by
  unfold State.store at h
  split at h
  · exact State.storeAligned_data (fun _ hb => hb) h
  · split at h
    case h_1 => cases h
    case h_2 => cases h
    case h_3 =>
      cases h1 : s.storeBytes (w.addrs a) (w.bytes v) with
      | error e => rw [h1] at h; cases h
      | ok s1 => rw [h1] at h; cases h; exact State.storeBytes_data _ _ (fun _ hb => hb) h1

end Store

end Sys2Proof.Machine
end

section
/-! PROOFS. The store that resets the system, and the next states of stores and atomics. -/

namespace Sys2Proof.Machine
open Sys2Proof

/-- The address of the register with SYSRESET (60 R546, R556): PFIC_CFGR on V3A, PFIC_SCTLR on V3B/C. -/
def State.resetAddr (s : State) : Word := if s.isV3A then 0xE000E048#32 else 0xE000ED10#32

/-- A word is its block, its register in the block and its byte lane. -/
theorem word_of_fields {a b : Word} (hblock : a.extractLsb' 5 27 = b.extractLsb' 5 27)
    (hreg : a.extractLsb' 2 3 = b.extractLsb' 2 3) (hlane : a.extractLsb' 0 2 = b.extractLsb' 0 2) : a = b := by
  have h1 := congrArg BitVec.toNat hblock
  have h2 := congrArg BitVec.toNat hreg
  have h3 := congrArg BitVec.toNat hlane
  simp only [BitVec.extractLsb'_toNat, Nat.shiftRight_eq_div_pow] at h1 h2 h3
  apply BitVec.eq_of_toNat_eq
  omega

theorem wordAddr_lane (a : Word) : (wordAddr a).extractLsb' 0 2 = 0#2 := by
  rw [wordAddr]
  exact extract_of_mask (mask := 3#32) (pattern := 0#32) (by rw [BitVec.and_assoc]; simp) 0 2 rfl

/-- A word-aligned address is that of its word. -/
theorem wordAddr_of_aligned {a : Word} (h : Width.word.aligned a = true) : wordAddr a = a := by
  have hlow : a.extractLsb' 0 2 = 0#2 := beq_iff_eq.mp h
  have hmask : wordAddr a &&& 0xFFFFFFFC#32 = a &&& 0xFFFFFFFC#32 := by
    rw [wordAddr, BitVec.and_assoc]; rfl
  refine word_of_fields ?_ ?_ ((wordAddr_lane a).trans hlow.symm)
  · exact (extract_of_mask hmask 5 27 rfl).trans (extract_of_mask (mask := 0xFFFFFFFC#32) rfl 5 27 rfl).symm
  · exact (extract_of_mask hmask 2 3 rfl).trans (extract_of_mask (mask := 0xFFFFFFFC#32) rfl 2 3 rfl).symm

theorem devRegBlock40_cfgr : ∀ {v : Bool} {x : BitVec 3}, devRegBlock40 v x = some .cfgr → v = true ∧ x = 2#3 := by
  decide

theorem devRegBlock40_ne_sctlr : ∀ (v : Bool) (x : BitVec 3), devRegBlock40 v x ≠ some .sctlr := by
  decide

theorem devRegStk_ne : ∀ (v : Bool) (x : BitVec 3), devRegStk v x ≠ some .cfgr ∧ devRegStk v x ≠ some .sctlr := by
  decide

theorem of_ite_ne {p : Prop} [Decidable p] {α : Type} {x y z : α} (hne : x ≠ z) (h : (if p then x else y) = z) : y = z := by
  by_cases hp : p
  · exact absurd ((if_pos hp).symm.trans h) hne
  · exact (if_neg hp).symm.trans h

theorem of_ite_last {p : Prop} [Decidable p] {α : Type} {x y z : α} (hne : y ≠ z) (h : (if p then x else y) = z) :
    p ∧ x = z := by
  by_cases hp : p
  · exact ⟨hp, (if_pos hp).symm.trans h⟩
  · exact absurd ((if_neg hp).symm.trans h) hne

theorem ite_ne {p : Prop} [Decidable p] {α : Type} {x y z : α} (hx : x ≠ z) (hy : y ≠ z) : (if p then x else y) ≠ z := by
  split
  · exact hx
  · exact hy

/-- PFIC_CFGR is on V3A only, at its one address. -/
theorem devRegAt_cfgr {c : Config} {a : Word} (h : devRegAt c a = some .cfgr) (hlane : a.extractLsb' 0 2 = 0#2) :
    c.variant.isV3A = true ∧ a = 0xE000E048#32 := by
  unfold devRegAt at h
  dsimp only at h
  have h4 := of_ite_ne (by simp) (of_ite_ne (by simp) (of_ite_ne (by simp) (of_ite_ne (by simp) h)))
  obtain ⟨hb, h40⟩ := of_ite_last (by
    refine ite_ne (ite_ne ?_ ?_) (ite_ne ?_ (ite_ne ?_ (ite_ne ?_ (ite_ne ?_ (ite_ne ?_ (ite_ne ?_ (ite_ne ?_
      (ite_ne (devRegStk_ne _ _).1 ?_))))))))
    all_goals simp) h4
  obtain ⟨hv, hx⟩ := devRegBlock40_cfgr h40
  exact ⟨hv, word_of_fields (extract_of_mask hb 5 27 rfl) hx hlane⟩

/-- PFIC_SCTLR is at its one address. -/
theorem devRegAt_sctlr {c : Config} {a : Word} (h : devRegAt c a = some .sctlr) : a = 0xE000ED10#32 := by
  unfold devRegAt at h
  dsimp only at h
  have h4 := of_ite_ne (by simp) (of_ite_ne (by simp) (of_ite_ne (by simp) (of_ite_ne (by simp) h)))
  have h7 := of_ite_ne (ite_ne (by simp) (by simp)) (of_ite_ne (devRegBlock40_ne_sctlr _ _) h4)
  have h13 := of_ite_ne (by simp) (of_ite_ne (by simp) (of_ite_ne (by simp) (of_ite_ne (by simp) (of_ite_ne (by simp)
    (of_ite_ne (by simp) h7)))))
  exact (of_ite_last (ite_ne (devRegStk_ne _ _).2 (by simp)) h13).1

/-- The only write that resets the system is a word to the register with SYSRESET. -/
theorem DevReg.resets_at {s : State} {a v : Word} {w : Width} {r : DevReg} (hr : devRegAt s.cfg (wordAddr a) = some r)
    (hw : r.writeWidth s.isV3A w = true) (h : r.resets s.isV3A w v = true) (ha : w.aligned a = true) :
    w = .word ∧ a = s.resetAddr := by
  cases r with
  | cfgr =>
    simp only [DevReg.resets, Bool.and_eq_true, beq_iff_eq] at h
    obtain ⟨⟨rfl, -⟩, -⟩ := h
    obtain ⟨hv, hat⟩ := devRegAt_cfgr hr (wordAddr_lane a)
    exact ⟨rfl, by rw [State.resetAddr, if_pos (show s.isV3A = true from hv), ← hat, wordAddr_of_aligned ha]⟩
  | sctlr =>
    simp only [DevReg.resets, Bool.and_eq_true, Bool.not_eq_true'] at h
    obtain ⟨hv, -⟩ := h
    rw [State.resetAddr, hv]
    cases w with
    | byte => cases hw
    | half => rw [hv] at hw; cases hw
    | word => exact ⟨rfl, by rw [← wordAddr_of_aligned ha, devRegAt_sctlr hr]; rfl⟩
  | _ => cases h

/-! ### Next states of stores and atomics -/

section Store
variable {s t : State} {rd : Reg} {a v n : Word} {w : Width}

/-- A store resets the system only as an aligned word store to the register with SYSRESET. -/
theorem State.storeAligned_restart_at (h : s.storeAligned a w v = .error (.restart t)) (ha : w.aligned a = true) :
    w = .word ∧ a = s.resetAddr ∧ s.target (w.addrs a) = .device ∧ s.pmpOk .store (w.addrs a) = true := by
  unfold State.storeAligned at h
  split at h
  case isTrue => cases h
  case isFalse hok =>
    split at h
    case h_1 htarget =>
      unfold State.devStore at h
      split at h
      · cases h
      · rename_i r hr
        split at h
        · rename_i hwidth
          split at h
          · cases h
          · split at h
            · rename_i hresets
              obtain ⟨hw, hat⟩ := DevReg.resets_at hr hwidth hresets ha
              exact ⟨hw, hat, htarget, by simpa using hok⟩
            · cases h
        · cases h
    all_goals cases h

theorem State.storeBytes_noRestart (as : List Word) (bs : List Byte) (s t : State) :
    s.storeBytes as bs ≠ .error (.restart t) := by
  induction as generalizing s bs with
  | nil => cases bs <;> nofun
  | cons a as ih =>
    cases bs with
    | nil => nofun
    | cons b bs =>
      unfold State.storeBytes
      cases h : s.storeAligned a .byte (b.setWidth 32) with
      | ok s1 => exact ih bs s1
      | error e =>
        intro he
        cases he
        obtain ⟨hw, -⟩ := State.storeAligned_restart_at h rfl
        cases hw

theorem State.store_restart_at (h : s.store a w v = .error (.restart t)) :
    w = .word ∧ a = s.resetAddr ∧ t = s.drainAll.systemReset.leaveReset := by
  unfold State.store at h
  split at h
  case isTrue ha =>
    obtain ⟨hw, hat, -⟩ := State.storeAligned_restart_at h ha
    exact ⟨hw, hat, State.storeAligned_restart h⟩
  case isFalse =>
    split at h
    case h_1 => cases h
    case h_2 => cases h
    case h_3 =>
      cases h1 : s.storeBytes (w.addrs a) (w.bytes v) with
      | ok s1 => rw [h1] at h; cases h
      | error e =>
        rw [h1] at h
        exact absurd (Stop.inAccess_restart (Except.error.inj h) ▸ h1) (State.storeBytes_noRestart _ _ s t)

/-- The system has been reset by a store (70 R651), perhaps under a data breakpoint, which takes a draw. -/
def ResetBy (s t : State) : Prop :=
  t = s.drainAll.systemReset.leaveReset ∨ t = s.drainAll.systemReset.leaveReset.drawn

theorem State.storeFrom_ends (h : s.storeFrom a w v n = .next t) :
    DataEnds (w.addrs a) n s t ∨ (w = .word ∧ a = s.resetAddr ∧ ResetBy s t) := by
  rcases State.storeFrom_next h with ⟨d, hd, hr⟩ | ⟨d, hd, rfl⟩ | ⟨e, info, d, hd, hr⟩ | ⟨d, hd, ht⟩
  · exact .inl (.raise ((State.store_data hd).trans (.drawn _ d)) hr)
  · exact .inl (.advance (State.store_data hd))
  · exact .inl (.raise (.of_drawn hd) hr)
  · obtain ⟨hw, ha, rfl⟩ := State.store_restart_at hd
    exact .inr ⟨hw, ha, ht⟩

theorem State.storeConditional_ends (h : s.storeConditional rd a v = .next t) :
    DataEnds (Width.word.addrs a) 4#32 s t := by
  have hclear (d : State) (hd : d = s ∨ d = s.drawn) : DataStep (Width.word.addrs a) s { d with reservation := none } :=
    (DataStep.of_drawn hd).trans (.of_same rfl rfl rfl)
  unfold State.storeConditional at h
  dsimp only at h
  split at h
  case isTrue => exact .raise (.refl _ s) h
  case isFalse haligned =>
  split at h
  case isTrue => cases h
  case isFalse hdevice =>
  split at h
  case isTrue => cases h
  case isFalse =>
  split at h
  case isFalse => exact .writeBack (hclear s (.inl rfl)) h
  case isTrue =>
  split at h
  case isFalse => exact .writeBack (hclear _ (.inr rfl)) h
  case isTrue =>
    cases hs : State.storeAligned { s.drawn with reservation := none } a .word v with
    | ok d =>
      rw [hs] at h
      exact .writeBack ((hclear _ (.inr rfl)).trans (State.storeAligned_data (fun _ hb => hb) hs)) h
    | error e =>
      rw [hs] at h
      cases e with
      | exn e info => exact .raise (.drawn _ s) h
      | fault f => cases h
      | refused r => cases h
      | restart u =>
        obtain ⟨-, -, htarget, hok⟩ := State.storeAligned_restart_at hs (by simpa using haligned)
        refine absurd ?_ hdevice
        rw [Bool.and_eq_true, beq_iff_eq]
        exact ⟨hok, htarget⟩

theorem State.amo_ends {f : Word → Word} (h : s.amo rd a f = .next t) : DataEnds (Width.word.addrs a) 4#32 s t := by
  have hfault : DataStep (Width.word.addrs a) s (s.faultingLoad rd) := (DataStep.drawn _ s).setReg rd _
  unfold State.amo at h
  dsimp only at h
  split at h
  case isTrue => exact .raise (.refl _ s) h
  case isFalse =>
  split at h
  case isTrue => exact .raise hfault h
  case isFalse =>
  split at h
  case h_1 => cases h
  case h_2 => cases h
  case h_3 => exact .raise hfault h
  case h_4 => exact .raise hfault h
  case h_5 hram =>
    cases hb : s.bytesAt (Width.word.addrs a) with
    | error e => rw [hb] at h; cases h
    | ok bs =>
      rw [hb] at h
      refine .writeBack ⟨?_, fun b hnb => ?_, fun hm => ?_, fun hr => ?_⟩ h
      · exact ((s.storeClears_only a).trans (State.setBytes_only ..)).dataOnly
      · exact (State.byteAt_setBytes_other _ _ _ _ hnb).trans (State.byteAt_congr (s.storeClears_mem a) b)
      · exact State.setBytes_wf _ _ ((s.storeClears_mem a).symm ▸ hm)
      · exact (s.storeClears_only a).pfic_eq.symm ▸ hr

end Store

end Sys2Proof.Machine
end

section
/-! PROOFS. The next states of any instruction, in one inversion, and what no instruction changes. -/

namespace Sys2Proof.Machine
open Sys2Proof

/-- The addresses of the bytes an instruction stores. -/
def storedBytes (s : State) (i : Instr) : List Word := (storesTo s i).elim [] fun p => p.2.addrs p.1

/-- The next states of an instruction. -/
inductive NextForm (i : Instr) (s t : State) : Prop
  | completes (d : State) (target : Word) (hd : DataStep (storedBytes s i) s d) (ht : t = d.setPc target)
      (even : i.wellFormed = true → s.pc.getLsbD 0 = false → target.getLsbD 0 = false)
  | raised (d : State) (e : Exc) (info : Word) (hd : DataStep (storedBytes s i) s d) (ht : d.raise e info = .next t)
  | progbufDone (h : s.debugMode = true) (ht : t = s.progbufDone)
  | halts (h : s.debugMode = false) (ht : t = s.enterDebug 1#3 s.pc)
  | csr (rd : Reg) (a : CsrNum) (wr : Bool) (v : Word) (u : State) (hc : s.csrCheck a wr = .ok)
      (hw : if wr then s.csrWrite a v = .ok u else u = s) (ht : t = (u.setReg rd (s.csrRead a)).advance 4#32)
  | returned (h : s.priv = .machine) (ht : s.trapReturn = .next t)
  | reset (hs : storesTo s i = some (s.resetAddr, .word)) (ht : ResetBy s t)

section
variable {i : Instr} {s t : State} {n : Word}

theorem DataOnly.pc_eq {d : State} (h : DataOnly s d) : d.pc = s.pc := by unfold DataOnly at h; rw [h]

theorem NextForm.of_ends (h : DataEnds (storedBytes s i) n s t) (hn : n = 2#32 ∨ n = 4#32) : NextForm i s t := by
  obtain ⟨d, hd, rfl | ⟨e, info, ht⟩⟩ := h
  · exact .completes d (d.pc + n) hd rfl fun _ hpc => even_next (hd.only.pc_eq.symm ▸ hpc) hn
  · exact .raised d e info hd ht

theorem storedBytes_of_some {a : Word} {w : Width} (h : storesTo s i = some (a, w)) : storedBytes s i = w.addrs a := by
  rw [storedBytes, h]; rfl

theorem State.goToSleep_data (as : List Word) (s : State) : DataStep as s s.goToSleep := by
  refine (s.drainAll_data as).trans ?_
  unfold State.goToSleep
  dsimp only
  split_ifs
  · exact .refl as _
  · exact .of_same rfl rfl rfl
  · exact .of_same rfl rfl rfl
  · exact .of_same rfl rfl rfl

theorem NextForm.of_breakpoint (h : s.breakpoint = .next t) : NextForm i s t := by
  unfold State.breakpoint at h
  split at h
  case isTrue hd => cases h; exact .progbufDone hd rfl
  case isFalse hd =>
    split at h
    case isTrue => cases h; exact .halts (by simpa using hd) rfl
    case isFalse => exact .raised s _ _ (.refl _ s) h

theorem NextForm.of_csr {bits : Word} {rd : Reg} {a : CsrNum} {wr : Bool} {f : Word → Word}
    (h : s.csrInstr bits rd a wr f = .next t) : NextForm i s t := by
  rcases State.csrInstr_next h with ⟨-, hr⟩ | ⟨hc, u, -, hw, rfl⟩
  · exact .raised s _ _ (.refl _ s) hr
  · exact .csr rd a wr _ u hc hw rfl

theorem NextForm.of_mret (h : execMret s = .next t) : NextForm i s t := by
  unfold execMret at h
  split at h
  case isTrue hp => exact .returned hp h
  case isFalse => exact .raised s _ _ (.refl _ s) h

theorem NextForm.of_plain (hp : Plain i s) (h : exec i s = .next t) : NextForm i s t := by
  cases hp with
  | computes rd v target he even =>
    rw [he] at h
    cases h
    exact .completes _ target ((DataStep.refl _ s).setReg rd v) rfl even
  | fence he =>
    rw [he] at h
    cases h
    exact .of_ends (.advance ((s.drainAll_data _).trans (.of_same rfl rfl rfl))) (.inr rfl)
  | fenceI he =>
    rw [he] at h
    cases h
    exact .of_ends (.advance (.of_same rfl rfl rfl)) (.inr rfl)
  | wfi he =>
    rw [he] at h
    cases h
    exact .of_ends (.advance (s.goToSleep_data _)) (.inr rfl)
  | raises e info he => exact .raised s e info (.refl _ s) (he ▸ h)
  | breakpoint he => exact .of_breakpoint (he ▸ h)
  | csr bits rd a wr f he => exact .of_csr (he ▸ h)
  | mret he => exact .of_mret (he ▸ h)

/-- Every next state of an instruction has one of the forms. -/
theorem exec_next (h : exec i s = .next t) : NextForm i s t := by
  cases opKind i with
  | load rd b off w ext n hi =>
    rw [hi.exec_eq] at h
    exact .of_ends (State.loadTo_ends h) hi.length
  | store src b off w n hi =>
    rw [hi.exec_eq] at h
    rcases State.storeFrom_ends h with he | ⟨rfl, ha, ht⟩
    · exact .of_ends (storedBytes_of_some (hi.stores s) ▸ he) hi.length
    · exact .reset (by rw [hi.stores, ha]) ht
  | lr rd rs1 aq rl hi =>
    subst hi
    exact .of_ends (State.loadReserved_ends h) (.inr rfl)
  | sc rd rs2 rs1 aq rl hi =>
    subst hi
    exact .of_ends (State.storeConditional_ends h) (.inr rfl)
  | amo rd b f hi =>
    rw [hi.exec_eq] at h
    exact .of_ends (storedBytes_of_some (hi.stores s) ▸ State.amo_ends h) (.inr rfl)
  | plain _ _ hi => exact .of_plain (hi s) h

end

/-! ### What traps and returns leave of memory -/

theorem State.raise_mem {s t : State} {e : Exc} {info : Word} (h : s.raise e info = .next t) : t.mem = s.mem := by
  rcases State.raise_next h with ⟨-, rfl⟩ | ⟨-, d, r, hd, -, ht⟩
  · rfl
  · obtain ⟨honly, -⟩ := State.trapEntry_effect ht
    have hm : t.mem = d.mem := by unfold TrapOnly at honly; rw [honly]
    rcases hd with rfl | rfl <;> exact hm

theorem CsrOnly.mem_eq {s t : State} (h : CsrOnly s t) : t.mem = s.mem := by unfold CsrOnly at h; rw [h]

theorem ReturnOnly.mem_eq {s t : State} (h : ReturnOnly s t) : t.mem = s.mem := by unfold ReturnOnly at h; rw [h]

theorem isCoreDevice_resetAddr (c : Config) (s : State) : isCoreDevice c s.resetAddr = true := by
  unfold isCoreDevice State.resetAddr
  split <;> rfl

theorem csrOnly_of_written {s u : State} {a : CsrNum} {wr : Bool} {v : Word}
    (hw : if wr then s.csrWrite a v = .ok u else u = s) : CsrOnly s u := by
  cases wr with
  | true => exact State.csrWrite_only hw
  | false => cases hw; rfl

/-- Settles O31: only the reset form changes a byte that is not stored, and its store is to a core device. -/
theorem memoryFrame : Obligations.MemoryFrame := by
  intro s t i h
  have key : storesTo s i = some (s.resetAddr, .word) ∨ ∀ b : Word, b ∉ storedBytes s i → t.byteAt b = s.byteAt b := by
    cases exec_next h with
    | completes d target hd ht => subst ht; exact .inr hd.frame
    | raised d e info hd ht =>
      exact .inr fun b hb => (State.byteAt_congr (State.raise_mem ht) b).trans (hd.frame b hb)
    | progbufDone _ ht => subst ht; exact .inr fun _ _ => rfl
    | halts _ ht => subst ht; exact .inr fun _ _ => rfl
    | csr rd a wr v u _ hw ht =>
      subst ht
      refine .inr fun b _ => State.byteAt_congr ?_ b
      exact (u.setReg_mem rd _).trans (csrOnly_of_written hw).mem_eq
    | returned _ ht =>
      obtain ⟨honly, -⟩ := State.trapReturn_effect ht
      exact .inr fun b _ => State.byteAt_congr honly.mem_eq b
    | reset hs _ => exact .inl hs
  refine ⟨fun hnone a => ?_, fun a w hs hdev b hb => ?_⟩
  · rcases key with hreset | hframe
    · rw [hnone] at hreset; cases hreset
    · exact hframe a (by rw [storedBytes, hnone]; exact List.not_mem_nil)
  · rcases key with hreset | hframe
    · rw [hs] at hreset
      cases hreset
      have hno := hdev s.resetAddr (by simp [Width.addrs])
      rw [isCoreDevice_resetAddr] at hno
      cases hno
    · exact hframe b (by rw [storedBytes_of_some hs]; exact hb)

end Sys2Proof.Machine
end

section
/-! PROOFS. The CSR access check (41 R262). -/

namespace Sys2Proof.Machine
open Sys2Proof

/-! ### The numbers -/

theorem debugCsr_iff (a : CsrNum) : a.extractLsb' 2 10 = 0x1EC#10 ↔ a ∈ [0x7B0#12, 0x7B1#12, 0x7B2#12, 0x7B3#12] := by
  have hnat : a.extractLsb' 2 10 = 0x1EC#10 ↔ a.toNat / 4 = 0x1EC := by
    rw [← BitVec.toNat_inj, BitVec.extractLsb'_toNat, Nat.shiftRight_eq_div_pow]
    have := a.isLt
    simp only [BitVec.toNat_ofNat]
    omega
  simp only [hnat, List.mem_cons, List.not_mem_nil, or_false, ← BitVec.toNat_inj, BitVec.toNat_ofNat]
  omega

theorem triggerCsr_iff (a : CsrNum) : (a == 0x7A1#12 || a == 0x7A2#12) = true ↔ a ∈ [0x7A1#12, 0x7A2#12] := by
  simp

theorem csrVendor_iff (a : CsrNum) : csrVendor a = true ↔ a ∈ [0x800#12, 0x804#12, 0xBC0#12, 0xBC1#12] := by
  simp [csrVendor]

theorem Priv.bits_lt_iff (p : Priv) (b : BitVec 2) : p.bits.toNat < b.toNat ↔ p = .user ∧ b ≠ 0#2 := by
  cases p <;> revert b <;> decide

theorem csrOnAll_not_vendor {a : CsrNum} (h : csrOnAll a = true) :
    a ∉ [0x800#12, 0x804#12, 0xBC0#12, 0xBC1#12] ∧ a ∉ [0x7A1#12, 0x7A2#12] := by
  have hne : ∀ b ∈ [0xF12#12, 0xF13#12, 0x300#12, 0x301#12, 0x305#12, 0x340#12, 0x341#12, 0x342#12, 0x343#12, 0x7B0#12,
      0x7B1#12, 0x7B2#12, 0x7B3#12],
      b ∉ [0x800#12, 0x804#12, 0xBC0#12, 0xBC1#12] ∧ b ∉ [0x7A1#12, 0x7A2#12] := by simp
  exact hne a (List.contains_iff_mem.mp h)

theorem State.csrImplemented_v3a {s : State} {a : CsrNum} (h : s.csrImplemented a = true) (hv : s.isV3A = true) :
    a ∉ [0x800#12, 0x804#12, 0xBC0#12, 0xBC1#12] ∧ a ∉ [0x7A1#12, 0x7A2#12] := by
  refine csrOnAll_not_vendor ?_
  rwa [State.csrImplemented, hv, Bool.not_true, Bool.false_and, Bool.or_false] at h

/-- The only implemented numbers of the user level are `gintenr` and `intsyscr`. -/
theorem userCsr_of_implemented {s : State} {a : CsrNum} (h : s.csrImplemented a = true) (hu : a.extractLsb' 8 2 = 0#2) :
    a = 0x800#12 ∨ a = 0x804#12 := by
  have hall : ∀ b ∈ [0xF12#12, 0xF13#12, 0x300#12, 0x301#12, 0x305#12, 0x340#12, 0x341#12, 0x342#12, 0x343#12, 0x7B0#12,
      0x7B1#12, 0x7B2#12, 0x7B3#12], b.extractLsb' 8 2 ≠ 0#2 := by simp
  have hbc : ∀ b ∈ [0x3A0#12, 0x3B0#12, 0x3B1#12, 0x3B2#12, 0x3B3#12, 0x7A0#12, 0x7A1#12, 0x7A2#12],
      b.extractLsb' 8 2 ≠ 0#2 := by simp
  have hvendor : ∀ b ∈ [0x800#12, 0x804#12, 0xBC0#12, 0xBC1#12], b.extractLsb' 8 2 = 0#2 → b = 0x800#12 ∨ b = 0x804#12 := by
    simp
  simp only [State.csrImplemented, csrOnV3BC, Bool.or_eq_true, Bool.and_eq_true, csrVendor_iff] at h
  rcases h with h | ⟨-, h | h⟩
  · exact absurd hu (hall a (List.contains_iff_mem.mp h))
  · exact absurd hu (hbc a (List.contains_iff_mem.mp h))
  · exact hvendor a h hu

/-! ### The check -/

/-- The access check, its conditions as the statements write them. -/
theorem State.csrCheck_eq (s : State) (a : CsrNum) (w : Bool) :
    s.csrCheck a w =
      if ¬s.csrImplemented a = true then
        (if s.isV3A = true ∧ a ∈ [0x800#12, 0x804#12, 0xBC0#12, 0xBC1#12] then .refused (.vendorCsrOnV3A a) else .illegal)
      else if a ∈ [0x7B0#12, 0x7B1#12, 0x7B2#12, 0x7B3#12] ∧ ¬s.debugMode = true then .illegal
      else if s.priv = .user ∧ a.extractLsb' 8 2 ≠ 0#2 then .illegal
      else if w = true ∧ a.extractLsb' 10 2 = 3#2 then .illegal
      else if a = 0x804#12 ∧ s.priv = .user ∧ s.csr.intsyscr.lock = true then .illegal
      else if (w = true ∧ a ∈ [0x7A1#12, 0x7A2#12]) ∧ ¬s.debugMode = true then .refused (.triggerWrite a)
      else .ok := by
  simp only [State.csrCheck, ← csrVendor_iff, ← debugCsr_iff, ← triggerCsr_iff, ← Priv.bits_lt_iff, Bool.and_eq_true,
    Bool.not_eq_true', Bool.not_eq_true, beq_iff_eq, and_assoc]

theorem State.csrCheck_ok_iff (s : State) (a : CsrNum) (w : Bool) : s.csrCheck a w = .ok ↔ CsrAllowed s a w := by
  rw [State.csrCheck_eq, CsrAllowed]
  split_ifs <;> simp only [false_iff, true_iff] <;> simp_all

theorem State.csrCheck_illegal_iff (s : State) (a : CsrNum) (w : Bool) : s.csrCheck a w = .illegal ↔ CsrDenied s a w := by
  have hv : s.csrImplemented a = true → s.isV3A = true → a ∉ [0x800#12, 0x804#12, 0xBC0#12, 0xBC1#12] :=
    fun h hv => (State.csrImplemented_v3a h hv).1
  rw [State.csrCheck_eq, CsrDenied]
  split_ifs <;> simp only [false_iff, true_iff] <;> simp_all

theorem State.csrCheck_refused {s : State} {a : CsrNum} {w : Bool} (hok : ¬CsrAllowed s a w) (hill : ¬CsrDenied s a w) :
    s.csrCheck a w = .refused (if s.isV3A then .vendorCsrOnV3A a else .triggerWrite a) := by
  have htrigger : s.csrImplemented a = true → a ∈ [0x7A1#12, 0x7A2#12] → ¬s.isV3A = true :=
    fun h ha hv => (State.csrImplemented_v3a h hv).2 ha
  rw [← State.csrCheck_ok_iff] at hok
  rw [← State.csrCheck_illegal_iff] at hill
  rw [State.csrCheck_eq] at hok hill ⊢
  split_ifs at hok hill ⊢ with himpl hvendor hv
  all_goals simp_all

/-- Settles O38. -/
theorem csrAccessCheck : Obligations.CsrAccessCheck := fun s a w =>
  ⟨s.csrCheck_ok_iff a w, s.csrCheck_illegal_iff a w, State.csrCheck_refused,
    fun hu _ ⟨himpl, _, hlevel, _⟩ => userCsr_of_implemented himpl (hlevel hu)⟩

end Sys2Proof.Machine
end

section
/-! PROOFS. What no instruction reaches: a locked PMP region (20 R139), and machine-mode state from user mode (60 R517). -/

namespace Sys2Proof.Machine
open Sys2Proof

/-! ### Reset -/

section Reset
variable (s : State)

theorem State.leaveReset_eq :
    s.leaveReset =
      { s with
        debugMode := s.leaveReset.debugMode
        sleep := s.leaveReset.sleep
        priv := s.leaveReset.priv
        dbg := s.leaveReset.dbg
        pmpBefore := s.leaveReset.pmpBefore } := by
  unfold State.leaveReset
  split <;> rfl

@[simp] theorem State.leaveReset_cfg : s.leaveReset.cfg = s.cfg := by rw [State.leaveReset_eq]
@[simp] theorem State.leaveReset_pc : s.leaveReset.pc = s.pc := by rw [State.leaveReset_eq]
@[simp] theorem State.leaveReset_csr : s.leaveReset.csr = s.csr := by rw [State.leaveReset_eq]
@[simp] theorem State.leaveReset_pmp : s.leaveReset.pmp = s.pmp := by rw [State.leaveReset_eq]
@[simp] theorem State.leaveReset_nest : s.leaveReset.nest = s.nest := by rw [State.leaveReset_eq]
@[simp] theorem State.leaveReset_pfic : s.leaveReset.pfic = s.pfic := by rw [State.leaveReset_eq]
@[simp] theorem State.leaveReset_mem : s.leaveReset.mem = s.mem := by rw [State.leaveReset_eq]

theorem State.leaveReset_priv (h : s.priv = .machine) : s.leaveReset.priv = .machine := by
  unfold State.leaveReset
  split
  · rfl
  · exact h

theorem State.drainAll_cfg : s.drainAll.cfg = s.cfg := by
  have h := s.drainAll_device
  unfold DeviceOnly at h
  rw [h]

end Reset

/-- What a store of SYSRESET leaves, in the fields that the frames look at. -/
structure AfterReset (s t : State) : Prop where
  cfg : t.cfg = s.cfg
  pc : t.pc = s.cfg.resetPc
  priv : t.priv = .machine
  csr : t.csr = Csrs.reset
  pmp : t.pmp = Pmp.reset
  nest : t.nest = []
  pfic : t.pfic = Pfic.reset
  mem : t.mem = s.drainAll.systemReset.mem

theorem ResetBy.after {s t : State} (h : ResetBy s t) : AfterReset s t := by
  have hreset : AfterReset s s.drainAll.systemReset.leaveReset := by
    refine ⟨?_, ?_, State.leaveReset_priv _ rfl, ?_, ?_, ?_, ?_, ?_⟩
    · exact (State.leaveReset_cfg _).trans s.drainAll_cfg
    · exact (State.leaveReset_pc _).trans (congrArg Config.resetPc s.drainAll_cfg)
    all_goals simp only [State.leaveReset_csr, State.leaveReset_pmp, State.leaveReset_nest, State.leaveReset_pfic,
      State.leaveReset_mem, State.systemReset, State.reset]
  rcases h with rfl | rfl
  · exact hreset
  · obtain ⟨hcfg, hpc, hpriv, hcsr, hpmp, hnest, hpfic, hmem⟩ := hreset
    exact ⟨hcfg, hpc, hpriv, hcsr, hpmp, hnest, hpfic, hmem⟩

/-! ### CSR writes and the PMP -/

/-- A CSR write leaves the PMP, or is one of `pmpcfg0`, or of a `pmpaddr`. -/
theorem State.csrWrite_pmp {s u : State} {a : CsrNum} {v : Word} (h : s.csrWrite a v = .ok u) :
    u.pmp = s.pmp ∨ u = s.writePmpcfg v ∨ ∃ i, u = s.writePmpaddr i v := by
  unfold State.csrWrite at h
  split at h
  case h_1 => cases h; unfold State.writeMstatus State.afterModeField; dsimp only; split <;> exact .inl rfl
  case h_7 => cases h; exact .inr (.inl rfl)
  case h_8 | h_9 | h_10 | h_11 => cases h; exact .inr (.inr ⟨_, rfl⟩)
  case h_15 => cases h; unfold State.writeDcsr State.afterModeField; dsimp only; split <;> exact .inl rfl
  case h_19 => cases h; unfold State.writeGintenr; split <;> exact .inl rfl
  case h_21 =>
    unfold State.writeCorecfgr at h
    split at h
    · cases h
    · cases h; exact .inl rfl
  all_goals cases h; exact .inl rfl

theorem PmpCfg.written_locked {c : PmpCfg} (h : c.l = true) (d : Nat) (b : Byte) : c.written d b = c := if_pos h

theorem State.writePmpcfg_locked {s : State} {k : Fin 4} (h : s.pmp.cfg[k].l = true) (v : Word) :
    (s.writePmpcfg v).pmp.cfg[k] = s.pmp.cfg[k] := by
  fin_cases k <;> exact PmpCfg.written_locked h _ _

/-- A write of `pmpaddr<i>` changes no address but the `i`-th, and that one only where it is not locked. -/
theorem State.writePmpaddr_addr {s : State} {i j : Fin 4} (h : j = i → s.pmp.addrLocked i = true) (v : Word) :
    (s.writePmpaddr i v).pmp.addr[j] = s.pmp.addr[j] := by
  unfold State.writePmpaddr
  split
  case isTrue => rfl
  case isFalse hfree =>
    have hne : i.val ≠ j.val := fun he => hfree (h (Fin.ext he.symm))
    exact Vector.getElem_set_ne i.isLt j.isLt hne

theorem State.writePmpaddr_cfg (s : State) (i : Fin 4) (v : Word) : (s.writePmpaddr i v).pmp.cfg = s.pmp.cfg := by
  unfold State.writePmpaddr
  split <;> rfl

theorem Pmp.addrLocked_of_locked {p : Pmp} {i : Fin 4} (h : p.cfg[i].l = true) : p.addrLocked i = true := by
  rw [Pmp.addrLocked]
  exact (Bool.or_eq_true ..).mpr (.inl h)

theorem Pmp.addrLocked_of_next {p : Pmp} {j k : Fin 4} (hjk : j.val + 1 = k.val) (hl : p.cfg[k].l = true)
    (ha : p.cfg[k].a = .tor) : p.addrLocked j = true := by
  obtain ⟨k, hk⟩ := k
  dsimp only at hjk
  subst hjk
  rw [Pmp.addrLocked, dif_pos (by omega)]
  refine (Bool.or_eq_true ..).mpr (.inr ?_)
  simp only [Bool.and_eq_true, beq_iff_eq]
  exact ⟨hl, ha⟩

/-- The parts of a locked region that stay. -/
def LockKept (s t : State) (k : Fin 4) : Prop :=
  t.pmp.cfg[k] = s.pmp.cfg[k] ∧ t.pmp.addr[k] = s.pmp.addr[k] ∧
    ∀ j : Fin 4, j.val + 1 = k.val → s.pmp.cfg[k].a = .tor → t.pmp.addr[j] = s.pmp.addr[j]

theorem LockKept.of_eq {s t : State} (h : t.pmp = s.pmp) (k : Fin 4) : LockKept s t k := by
  unfold LockKept
  rw [h]
  exact ⟨rfl, rfl, fun _ _ _ => rfl⟩

theorem State.csrWrite_lockKept {s u : State} {a : CsrNum} {v : Word} {k : Fin 4} (h : s.csrWrite a v = .ok u)
    (hl : s.pmp.cfg[k].l = true) : LockKept s u k := by
  rcases State.csrWrite_pmp h with heq | rfl | ⟨i, rfl⟩
  · exact .of_eq heq k
  · exact ⟨State.writePmpcfg_locked hl v, rfl, fun _ _ _ => rfl⟩
  · refine ⟨by rw [State.writePmpaddr_cfg], State.writePmpaddr_addr (fun he => ?_) v, fun j hj ha => ?_⟩
    · subst he; exact Pmp.addrLocked_of_locked hl
    · exact State.writePmpaddr_addr (fun he => he ▸ Pmp.addrLocked_of_next hj hl ha) v

theorem DataOnly.pmp_eq {s d : State} (h : DataOnly s d) : d.pmp = s.pmp := by unfold DataOnly at h; rw [h]

theorem State.raise_pmp {s t : State} {e : Exc} {info : Word} (h : s.raise e info = .next t) : t.pmp = s.pmp := by
  rcases State.raise_next h with ⟨-, rfl⟩ | ⟨-, d, r, hd, -, ht⟩
  · rfl
  · obtain ⟨honly, -⟩ := State.trapEntry_effect ht
    have hm : t.pmp = d.pmp := by unfold TrapOnly at honly; rw [honly]
    rcases hd with rfl | rfl <;> exact hm

/-- Settles O40: of the forms, a CSR write respects the lock and only the reset form does not keep the PMP. -/
theorem pmpLockHolds : Obligations.PmpLockHolds := by
  intro s t i k h hl
  have kept : t.pmp = s.pmp → LockKept s t k := fun heq => .of_eq heq k
  cases exec_next h with
  | completes d target hd ht => exact .inl (kept (ht ▸ hd.only.pmp_eq))
  | raised d e info hd ht => exact .inl (kept ((State.raise_pmp ht).trans hd.only.pmp_eq))
  | progbufDone _ ht => exact .inl (kept (ht ▸ rfl))
  | halts _ ht => exact .inl (kept (ht ▸ rfl))
  | csr rd a wr v u _ hw ht =>
    have hpmp : t.pmp = u.pmp := by rw [ht, State.advance_pmp, State.setReg_pmp]
    refine .inl ?_
    cases wr with
    | true =>
      have hu := State.csrWrite_lockKept hw hl
      unfold LockKept at hu
      rwa [← hpmp] at hu
    | false => cases hw; exact kept hpmp
  | returned _ ht =>
    obtain ⟨honly, -⟩ := State.trapReturn_effect ht
    exact .inl (kept (by unfold ReturnOnly at honly; rw [honly]))
  | reset hs ht =>
    have hr := ht.after
    exact .inr ⟨fun j => by rw [hr.pmp], hr.pc, hr.nest, hr.priv, hr.csr, hs⟩

end Sys2Proof.Machine
end

section
/-! PROOFS. What an instruction in user mode leaves alone (60 R517, R518). -/

namespace Sys2Proof.Machine
open Sys2Proof

/-- The machine-mode state, but for what a user-mode instruction reaches through `gintenr` and `intsyscr`. -/
structure UserKept (s t : State) : Prop where
  priv : t.priv = s.priv
  pmp : t.pmp = s.pmp
  trig : t.trig = s.trig
  dbg : t.dbg = s.dbg
  nest : t.nest = s.nest
  hpe : t.hpe = s.hpe
  debugMode : t.debugMode = s.debugMode
  csr :
    t.csr =
      { s.csr with
        mstatus := { s.csr.mstatus with mie := t.csr.mstatus.mie, mpie := t.csr.mstatus.mpie }
        intsyscr := t.csr.intsyscr }
  lock : t.csr.intsyscr.lock = s.csr.intsyscr.lock
  window : s.csr.corecfgr.ieRemapEn = false → t.csr.mstatus = s.csr.mstatus
  locked : s.csr.intsyscr.lock = true → t.csr.intsyscr = s.csr.intsyscr

theorem UserKept.refl (s : State) : UserKept s s :=
  ⟨rfl, rfl, rfl, rfl, rfl, rfl, rfl, rfl, rfl, fun _ => rfl, fun _ => rfl⟩

theorem DataOnly.userKept {s d : State} (h : DataOnly s d) : UserKept s d := by
  unfold DataOnly at h
  rw [h]
  exact ⟨rfl, rfl, rfl, rfl, rfl, rfl, rfl, rfl, rfl, fun _ => rfl, fun _ => rfl⟩

/-- Writing a register and the pc afterwards adds nothing. -/
theorem UserKept.setReg {s u : State} (h : UserKept s u) (rd : Reg) (v n : Word) :
    UserKept s ((u.setReg rd v).advance n) := by
  obtain ⟨hpriv, hpmp, htrig, hdbg, hnest, hhpe, hdebug, hcsr, hlock, hwindow, hlocked⟩ := h
  constructor
  all_goals simp only [State.advance_priv, State.advance_pmp, State.advance_trig, State.advance_dbg, State.advance_nest,
    State.advance_hpe, State.advance_debugMode, State.advance_csr, State.setReg_priv, State.setReg_pmp, State.setReg_trig,
    State.setReg_dbg, State.setReg_nest, State.setReg_hpe, State.setReg_debugMode, State.setReg_csr]
  all_goals assumption

theorem State.writeGintenr_userKept (s : State) (v : Word) : UserKept s (s.writeGintenr v) := by
  unfold State.writeGintenr
  split
  case isTrue hremap =>
    exact ⟨rfl, rfl, rfl, rfl, rfl, rfl, rfl, rfl, rfl, fun hoff => absurd hremap (by simp [hoff]), fun _ => rfl⟩
  case isFalse => exact .refl s

theorem State.writeIntsyscr_userKept {s : State} (hu : s.priv = .user) (hl : s.csr.intsyscr.lock = false) (v : Word) :
    UserKept s (s.writeIntsyscr v) :=
  ⟨rfl, rfl, rfl, rfl, rfl, rfl, rfl, rfl, if_pos hu, fun _ => rfl, fun hlock => absurd hlock (by simp [hl])⟩

/-- The CSR writes that the access check lets user mode do (41 R262). -/
theorem State.csrWrite_userKept {s u : State} {a : CsrNum} {v : Word} (hu : s.priv = .user) (hok : s.csrCheck a true = .ok)
    (hw : s.csrWrite a v = .ok u) : UserKept s u := by
  obtain ⟨himpl, -, hlevel, -, hlock, -⟩ := (s.csrCheck_ok_iff a true).mp hok
  rcases userCsr_of_implemented himpl (hlevel hu) with rfl | rfl
  · cases hw; exact s.writeGintenr_userKept v
  · cases hw; exact State.writeIntsyscr_userKept hu (hlock rfl hu) v

theorem State.trapEntry_nest {s u : State} {r : TrapReq} (h : s.trapEntry r = .next u) : ∃ e, u.nest = e :: s.nest := by
  obtain ⟨s1, a, s2, hover, htarget, rfl⟩ := State.trapEntry_next h
  obtain ⟨-, hd, -⟩ := State.trapTarget_ok htarget
  obtain ⟨-, -, -, hnest⟩ := State.overflow_level hover
  have h2 : s2.nest = (s1.enterTrap r).nest := by unfold DeviceOnly at hd; rw [hd]
  exact ⟨_, by rw [State.setPc_nest, h2, State.enterTrap_nest, hnest, State.drainAll_nest]⟩

/-- Outside debug mode an exception enters machine mode with one more active trap. -/
theorem State.raise_enters {s t : State} {e : Exc} {info : Word} (hd : s.debugMode = false) (h : s.raise e info = .next t) :
    t.priv = .machine ∧ ∃ e, t.nest = e :: s.nest := by
  rcases State.raise_next h with ⟨hdebug, -⟩ | ⟨-, d, r, hds, -, ht⟩
  · rw [hd] at hdebug; cases hdebug
  · obtain ⟨-, hpriv, -⟩ := State.trapEntry_effect ht
    have hnest := State.trapEntry_nest ht
    refine ⟨hpriv, ?_⟩
    rcases hds with rfl | rfl <;> exact hnest

/-- A next state in user mode has kept the machine's state; one in machine mode has come by a trap, a debug entry or a
reset. -/
theorem exec_user {s t : State} {i : Instr} (hu : s.priv = .user) (hd : s.debugMode = false) (h : exec i s = .next t) :
    UserKept s t ∨
      (t.priv = .machine ∧
        ((∃ e, t.nest = e :: s.nest) ∨ t.debugMode = true ∨ (t.pc = s.cfg.resetPc ∧ t.nest = []))) := by
  cases exec_next h with
  | completes d target hdata ht =>
    subst ht
    obtain ⟨hpriv, hpmp, htrig, hdbg, hnest, hhpe, hdebug, hcsr, hlock, hwindow, hlocked⟩ := hdata.only.userKept
    exact .inl ⟨hpriv, hpmp, htrig, hdbg, hnest, hhpe, hdebug, hcsr, hlock, hwindow, hlocked⟩
  | raised d e info hdata ht =>
    have hkept := hdata.only.userKept
    obtain ⟨hpriv, hnest⟩ := State.raise_enters (hkept.debugMode.trans hd) ht
    rw [hkept.nest] at hnest
    exact .inr ⟨hpriv, .inl hnest⟩
  | progbufDone hdebug _ => rw [hd] at hdebug; cases hdebug
  | halts _ ht => subst ht; exact .inr ⟨rfl, .inr (.inl rfl)⟩
  | csr rd a wr v u hc hw ht =>
    subst ht
    refine .inl (UserKept.setReg ?_ rd _ _)
    cases wr with
    | true => exact State.csrWrite_userKept hu hc hw
    | false => cases hw; exact .refl s
  | returned hp _ => rw [hu] at hp; cases hp
  | reset _ ht =>
    have hr := ht.after
    exact .inr ⟨hr.priv, .inr (.inr ⟨hr.pc, hr.nest⟩)⟩

/-- Settles O60: by the forms of a next state, in user mode. -/
theorem userModeIsolation : Obligations.UserModeIsolation := by
  intro s t i hu hd h
  rcases exec_user hu hd h with hkept | ⟨hpriv, hway⟩
  · refine ⟨fun hp => ?_, fun _ => ?_⟩
    · rw [hkept.priv, hu] at hp; cases hp
    · have hcsr := hkept.csr
      refine ⟨hkept.pmp, hkept.trig, hkept.dbg, hkept.nest, hkept.hpe, hkept.debugMode.trans hd, ?_, ?_, ?_, ?_, ?_, ?_, ?_, ?_,
        hkept.lock, hkept.window, hkept.locked⟩
      all_goals rw [hcsr]
  · exact ⟨fun _ => hway, fun hp => by rw [hpriv] at hp; cases hp⟩

end Sys2Proof.Machine
end

section
/-! PROOFS. What every instruction keeps: the form of the state (10 R31, 20 R138, 60 R537, R557), the parameters, and the even
pc (10 R27). -/

namespace Sys2Proof.Machine
open Sys2Proof

/-- `t` has the parameters of `s`, its form if `s` has it, and an even pc if that of `s` is. -/
structure Keeps (s t : State) : Prop where
  cfg : t.cfg = s.cfg
  form : StateForm s → StateForm t
  even : PcEven s → PcEven t

section
variable {s t u : State}

theorem Keeps.refl (s : State) : Keeps s s := ⟨rfl, id, id⟩

theorem Keeps.trans (h : Keeps s t) (h' : Keeps t u) : Keeps s u :=
  ⟨h'.cfg.trans h.cfg, fun hs => h'.form (h.form hs), fun hs => h'.even (h.even hs)⟩

theorem LevelBound.congr (hn : t.nest = s.nest) (hc : t.cfg = s.cfg) (h : LevelBound s) : LevelBound t := by
  unfold LevelBound State.level State.isV3A at *
  rwa [hn, hc]

theorem PmpLegal.congr (hp : t.pmp = s.pmp) (h : PmpLegal s) : PmpLegal t := by
  unfold PmpLegal at *
  rwa [hp]

/-- A change of data keeps everything if the pc stays or is even. -/
theorem Keeps.of_data {as : List Word} (h : DataStep as s t) : Keeps s t := by
  have hcfg : t.cfg = s.cfg := by have ho := h.only; unfold DataOnly at ho; rw [ho]
  have hnest : t.nest = s.nest := by have ho := h.only; unfold DataOnly at ho; rw [ho]
  refine ⟨hcfg, fun hs => ⟨h.wf hs.memory, hs.level.congr hnest hcfg, h.reserved hs.irqs, hs.pmp.congr h.only.pmp_eq⟩, ?_⟩
  intro hs
  exact ⟨hcfg ▸ hs.1, h.only.pc_eq ▸ hs.2⟩

/-- The form and the parity of the pc are those of these six fields. -/
theorem Keeps.of_eq (hm : t.mem = s.mem) (hn : t.nest = s.nest) (hi : t.pfic = s.pfic) (hp : t.pmp = s.pmp)
    (hc : t.cfg = s.cfg) (hpc : t.pc = s.pc) : Keeps s t :=
  ⟨hc, fun hs => ⟨hm ▸ hs.memory, hs.level.congr hn hc, (congrArg ReservedClear hi).mpr hs.irqs, hs.pmp.congr hp⟩,
    fun hs => ⟨hc ▸ hs.1, hpc ▸ hs.2⟩⟩

theorem Keeps.drawn (s : State) : Keeps s s.drawn := .of_eq rfl rfl rfl rfl rfl rfl

theorem Keeps.setPc {v : Word} (h : PcEven s → v.getLsbD 0 = false) : Keeps s (s.setPc v) :=
  ⟨rfl, fun hs => ⟨hs.memory, hs.level, hs.irqs, hs.pmp⟩, fun hs => ⟨hs.1, h hs⟩⟩

theorem Keeps.setReg (s : State) (rd : Reg) (v : Word) : Keeps s (s.setReg rd v) :=
  .of_data (as := []) ((DataStep.refl [] s).setReg rd v)

theorem Keeps.advance (s : State) {n : Word} (hn : n = 2#32 ∨ n = 4#32) : Keeps s (s.advance n) :=
  .setPc fun hs => even_next hs.2 hn

theorem Keeps.enterDebug (s : State) (cause : BitVec 3) (dpc : Word) : Keeps s (s.enterDebug cause dpc) :=
  .of_eq rfl rfl rfl rfl rfl rfl

/-! ### Traps -/

theorem Keeps.of_trapEntry {r : TrapReq} (h : s.trapEntry r = .next t) : Keeps s t := by
  obtain ⟨honly, -, heven, hlevel, ⟨hthree, hv3a⟩, hirqs⟩ := State.trapEntry_effect h
  have hcfg : t.cfg = s.cfg := by unfold TrapOnly at honly; rw [honly]
  have hmem : t.mem = s.mem := by unfold TrapOnly at honly; rw [honly]
  have hpmp : t.pmp = s.pmp := by unfold TrapOnly at honly; rw [honly]
  refine ⟨hcfg, fun hs => ⟨hmem ▸ hs.memory, ⟨hlevel ▸ hthree, fun hv => ?_⟩, hirqs hs.irqs, hs.pmp.congr hpmp⟩, fun hs => ?_⟩
  · rw [hlevel]
    exact hv3a (by rwa [State.isV3A, hcfg] at hv)
  · exact ⟨hcfg ▸ hs.1, heven⟩

theorem Keeps.of_raise {e : Exc} {info : Word} (h : s.raise e info = .next t) : Keeps s t := by
  rcases State.raise_next h with ⟨-, rfl⟩ | ⟨-, d, r, hd, -, ht⟩
  · exact .of_eq rfl rfl rfl rfl rfl rfl
  · rcases hd with rfl | rfl
    · exact .of_trapEntry ht
    · exact (Keeps.drawn s).trans (.of_trapEntry ht)

theorem Keeps.of_trapReturn (h : s.trapReturn = .next t) : Keeps s t := by
  obtain ⟨honly, hnest, hpc, heven, -, -, hpfic⟩ := State.trapReturn_effect h
  have hcfg : t.cfg = s.cfg := by unfold ReturnOnly at honly; rw [honly]
  have hpmp : t.pmp = s.pmp := by unfold ReturnOnly at honly; rw [honly]
  refine ⟨hcfg, fun hs => ⟨honly.mem_eq ▸ hs.memory, ?_, ?_, hs.pmp.congr hpmp⟩, fun hs => ⟨hcfg ▸ hs.1, hpc ▸ heven⟩⟩
  · obtain ⟨hthree, hv3a⟩ := hs.level
    have hle : t.level ≤ s.level := by
      rw [State.level, State.level, hnest, List.length_tail]; exact Nat.sub_le _ _
    exact ⟨hle.trans hthree, fun hv => hle.trans (hv3a (by rwa [State.isV3A, hcfg] at hv))⟩
  · exact (congrArg ReservedClear hpfic).mpr (State.drainAll_reserved hs.irqs)

/-! ### CSR writes -/

theorem PmpCfg.written_legal {c : PmpCfg} (h : c.w = true → c.r = true) (d : Nat) (b : Byte) :
    (c.written d b).w = true → (c.written d b).r = true := by
  unfold PmpCfg.written
  dsimp only
  split
  case isTrue => exact h
  case isFalse =>
    split
    case isTrue => exact fun hw => (Bool.and_eq_true_iff.mp hw).1
    case isFalse hfield =>
      intro hw
      by_contra hr
      exact hfield (by rw [Bool.and_eq_true]; exact ⟨by simpa using hr, hw⟩)

theorem State.csrWrite_pmpLegal {a : CsrNum} {v : Word} (h : s.csrWrite a v = .ok u) (hs : PmpLegal s) : PmpLegal u := by
  rcases State.csrWrite_pmp h with heq | rfl | ⟨i, rfl⟩
  · exact hs.congr heq
  · intro k
    fin_cases k
    · exact PmpCfg.written_legal (hs 0) _ _
    · exact PmpCfg.written_legal (hs 1) _ _
    · exact PmpCfg.written_legal (hs 2) _ _
    · exact PmpCfg.written_legal (hs 3) _ _
  · intro k
    rw [State.writePmpaddr_cfg]
    exact hs k

theorem Keeps.of_csrWrite {a : CsrNum} {v : Word} (h : s.csrWrite a v = .ok u) : Keeps s u := by
  obtain ⟨-, hpc, hmem, hnest, -, hpfic, hcfg⟩ := State.csrWrite_fields h
  exact ⟨hcfg, fun hs => ⟨hmem ▸ hs.memory, hs.level.congr hnest hcfg, (congrArg ReservedClear hpfic).mpr hs.irqs,
    State.csrWrite_pmpLegal h hs.pmp⟩, fun hs => ⟨hcfg ▸ hs.1, hpc ▸ hs.2⟩⟩

/-! ### Reset -/

theorem Pfic.reset_reserved : ReservedClear Pfic.reset := ⟨BitVec.zero_and, BitVec.zero_and⟩

theorem pmpLegal_reset (h : t.pmp = Pmp.reset) : PmpLegal t := by
  unfold PmpLegal
  rw [h]
  decide

/-- A state after a reset of the core has the form of every state, and starts at `RESET_PC`. -/
theorem Keeps.of_reset (hcfg : t.cfg = s.cfg) (hpc : t.pc = s.cfg.resetPc) (hpmp : t.pmp = Pmp.reset) (hnest : t.nest = [])
    (hpfic : t.pfic = Pfic.reset) (hmem : Memory.wf s.mem = true → Memory.wf t.mem = true) : Keeps s t := by
  refine ⟨hcfg, fun hs => ⟨hmem hs.memory, ?_, ?_, ?_⟩, fun hs => ⟨hcfg ▸ hs.1, hpc ▸ hs.1.1⟩⟩
  · unfold LevelBound State.level
    rw [hnest]
    exact ⟨Nat.zero_le _, fun _ => Nat.zero_le _⟩
  · exact (congrArg ReservedClear hpfic).mpr Pfic.reset_reserved
  · exact pmpLegal_reset hpmp

theorem Keeps.systemReset (s : State) : Keeps s s.systemReset :=
  .of_reset rfl rfl rfl rfl rfl (Memory.filter_wf _)

theorem Keeps.leaveReset (s : State) : Keeps s s.leaveReset := by
  unfold State.leaveReset
  split
  · exact .enterDebug s 5#3 s.pc
  · exact .refl s

theorem Keeps.of_resetBy (h : ResetBy s t) : Keeps s t := by
  have hreset : Keeps s s.drainAll.systemReset.leaveReset :=
    ((Keeps.of_data (s.drainAll_data [])).trans (.systemReset _)).trans (.leaveReset _)
  rcases h with rfl | rfl
  · exact hreset
  · exact hreset.trans (.drawn _)

/-! ### Instructions -/

/-- A well-formed instruction keeps the form of the state, the parameters and the even pc. -/
theorem exec_keeps {i : Instr} (hwf : i.wellFormed = true) (h : exec i s = .next t) : Keeps s t := by
  cases exec_next h with
  | completes d target hd ht even =>
    subst ht
    refine (Keeps.of_data hd).trans (.setPc fun hs => ?_)
    exact even hwf (hd.only.pc_eq ▸ hs.2)
  | raised d e info hd ht => exact (Keeps.of_data hd).trans (.of_raise ht)
  | progbufDone _ ht => subst ht; exact .of_eq rfl rfl rfl rfl rfl rfl
  | halts _ ht => subst ht; exact .enterDebug s 1#3 s.pc
  | csr rd a wr v u _ hw ht =>
    subst ht
    refine Keeps.trans (t := u) ?_ ((Keeps.setReg u rd _).trans (.advance _ (.inr rfl)))
    cases wr with
    | true => exact .of_csrWrite hw
    | false => cases hw; exact .refl s
  | returned _ ht => exact .of_trapReturn ht
  | reset _ ht => exact .of_resetBy ht

/-- What decodes is well-formed. -/
theorem wellFormed_of_decode {c : Config} {f : Fetched} {i : Instr} (h : decode c f = .instr i) : i.wellFormed = true := by
  cases hx : i.isXw with
  | false =>
    obtain ⟨-, hwf, -⟩ := encodeOfDecode c f i h hx
    exact hwf
  | true =>
    cases i
    case cLbu | cLhu | cSb | cSh | cLbusp | cLhusp | cSbsp | cShsp => rfl
    all_goals cases hx

end

end Sys2Proof.Machine
end

section
/-! PROOFS. What every step keeps: the debug module, the inputs at a boundary, the core's turn, and the two invariants. -/

namespace Sys2Proof.Machine
open Sys2Proof

/-- Every state this result holds, as its value or as a reset, is one that `s` keeps. -/
def KeepsResult (s : State) (r : Except Stop State) : Prop := ∀ t, r = .ok t ∨ r = .error (.restart t) → Keeps s t

/-- The next state of this outcome, if it is one. -/
def KeepsOut (s : State) (o : Out) : Prop := ∀ t, o = .next t → Keeps s t

section
variable {s t u : State}

theorem KeepsResult.ok (h : Keeps s t) : KeepsResult s (.ok t) := by
  rintro u (hu | hu)
  · cases hu; exact h
  · cases hu

theorem KeepsResult.error {e : Stop} (he : ∀ u, e = .restart u → Keeps s u) : KeepsResult s (.error e) := by
  rintro u (hu | hu)
  · cases hu
  · cases hu; exact he u rfl

theorem KeepsResult.refused (r : Refusal) : KeepsResult s (.error (.refused r)) :=
  .error fun _ hu => by cases hu

theorem KeepsResult.trans {r : Except Stop State} (h : Keeps s t) (hr : KeepsResult t r) : KeepsResult s r :=
  fun u hu => h.trans (hr u hu)

theorem KeepsOut.next (h : Keeps s t) : KeepsOut s (.next t) := by
  intro u hu
  cases hu
  exact h

theorem KeepsOut.refused (s : State) (r : Refusal) : KeepsOut s (.refused r) := fun _ h => by cases h

theorem KeepsOut.fault (s : State) (f : Fault) : KeepsOut s (.fault f) := fun _ h => by cases h

theorem KeepsOut.trans {o : Out} (h : Keeps s t) (ho : KeepsOut t o) : KeepsOut s o := fun u hu => h.trans (ho u hu)

theorem KeepsOut.raise (s : State) (e : Exc) (info : Word) : KeepsOut s (s.raise e info) := fun _ => .of_raise

theorem KeepsOut.stop {e : Stop} (he : ∀ u, e = .restart u → Keeps s u) : KeepsOut s (s.stop e) := by
  cases e with
  | exn e info => exact .raise s e info
  | fault f => exact .fault s f
  | refused r => exact .refused s r
  | restart u => exact .next (he u rfl)

/-! ### Abstract commands -/

theorem Keeps.dm (s : State) (d : DebugModule) : Keeps s { s with dm := d } := .of_eq rfl rfl rfl rfl rfl rfl

theorem Keeps.cmdError (s : State) (e : BitVec 3) : Keeps s (s.cmdError e) := .dm s _

theorem Keeps.postExec (s : State) : Keeps s s.postExec := by
  unfold State.postExec
  split
  · exact (Keeps.setPc (v := s.cfg.progbufBase) fun hs => hs.1.2).trans (.dm _ _)
  · exact .refl s

theorem Keeps.regnoUp (s : State) : Keeps s s.regnoUp := by
  unfold State.regnoUp
  split
  · exact .dm s _
  · exact .refl s

theorem Keeps.addressUp (s : State) (w : Width) : Keeps s (s.addressUp w) := by
  unfold State.addressUp
  split
  · exact .dm s _
  · exact .refl s

theorem Keeps.sizedDraw (s : State) : Keeps s s.sizedDraw := by
  unfold State.sizedDraw
  split
  · exact .refl s
  · exact .drawn s

theorem Keeps.agentBreaks (s : State) (a : Word) : Keeps s (s.agentBreaks a) := by
  unfold State.agentBreaks
  split
  · exact .refl s
  · split
    · exact .of_eq rfl rfl rfl rfl rfl rfl
    · exact .refl s

theorem Keeps.agentSees (s : State) (as : List Nat) (n : Nat) : Keeps s (s.agentSees as n) :=
  .of_eq rfl rfl rfl rfl rfl rfl

theorem State.transferRegister_keeps (s : State) : KeepsResult s s.transferRegister := by
  have read (v : Word) : Keeps s ({ s.sizedDraw with dm := { s.dm with data0 := v } } : State).regnoUp.postExec :=
    (((Keeps.sizedDraw s).trans (.dm _ _)).trans (.regnoUp _)).trans (.postExec _)
  unfold State.transferRegister
  dsimp only
  split
  case isTrue =>
    split
    · exact .ok (.cmdError s _)
    · exact .refused _
    · split
      · split
        · rename_i s1 hw
          exact .ok ((((Keeps.sizedDraw s).trans (.of_csrWrite hw)).trans (.regnoUp _)).trans (.postExec _))
        · exact .refused _
      · exact .ok (read _)
  case isFalse =>
    split
    · split
      · exact .ok ((((Keeps.sizedDraw s).trans (.setReg _ _ _)).trans (.regnoUp _)).trans (.postExec _))
      · exact .ok (read _)
    · exact .ok (.cmdError s _)

theorem State.registerCommand_keeps (s : State) : KeepsResult s s.registerCommand := by
  unfold State.registerCommand
  split
  · split
    · exact .ok (.cmdError s _)
    · exact s.transferRegister_keeps
  · exact .ok (.postExec s)

theorem State.memoryError_keeps {e : Stop} (he : ∀ u, e = .restart u → Keeps s u) : KeepsResult s (s.memoryError e) := by
  unfold State.memoryError
  split
  · exact .ok (.cmdError s _)
  · exact .ok (.cmdError s _)
  · exact .ok (.cmdError s _)
  · exact .ok (he _ rfl)
  · exact .error he

theorem State.memoryStore_keeps (s : State) (w : Width) (v : Word) : KeepsResult s (s.memoryStore w v) := by
  unfold State.memoryStore
  cases hs : s.store s.dm.data1 w v with
  | ok s1 =>
    exact .ok ((((((Keeps.of_data (State.store_data hs)).trans (.of_data (s1.drainAll_data []))).trans (.agentBreaks _ _)).trans
      (.agentSees _ _ _)).trans (.addressUp _ _)).trans (.postExec _))
  | error e =>
    refine State.memoryError_keeps fun u hu => ?_
    subst hu
    obtain ⟨-, -, ht⟩ := State.store_restart_at hs
    exact .of_resetBy (.inl ht)

theorem State.agentLoad_keeps {a v : Word} {w : Width} (h : s.agentLoad a w = .ok (v, t)) : Keeps s t := by
  unfold State.agentLoad at h
  dsimp only at h
  split at h
  case isTrue => exact .of_data (as := []) (State.load_data h)
  case isFalse =>
    split at h
    case h_2 => cases h
    case h_1 v1 s1 hl =>
      cases h
      have hdev := State.load_device hl
      have hreserved := State.load_reserved hl
      refine .of_data (as := []) ⟨?_, fun _ _ => rfl, id, hreserved⟩
      unfold DeviceOnly at hdev
      unfold DataOnly State.agentSees State.drawn
      rw [hdev]

theorem State.agentLoad_noRestart (s : State) (a : Word) (w : Width) (t : State) :
    s.agentLoad a w ≠ .error (.restart t) := by
  unfold State.agentLoad
  dsimp only
  split
  case isTrue => exact State.load_noRestart s a w t
  case isFalse =>
    split
    case h_1 => nofun
    case h_2 e hl =>
      intro he
      cases he
      exact State.load_noRestart _ a w t hl

theorem State.agentLoad_stop {a : Word} {w : Width} {e : Stop} (h : s.agentLoad a w = .error e) :
    ∀ u, e = .restart u → Keeps s u :=
  fun u hu => absurd (hu ▸ h) (s.agentLoad_noRestart a w u)

theorem State.memoryCommand_keeps (s : State) : KeepsResult s s.memoryCommand := by
  unfold State.memoryCommand
  dsimp only
  split
  case h_1 => exact .ok (.cmdError s _)
  case h_2 w _ =>
    split
    case isTrue =>
      split
      case isFalse => exact s.memoryStore_keeps w _
      case isTrue =>
        split
        case isFalse => exact .ok (.cmdError s _)
        case isTrue =>
          cases hl : s.agentLoad s.dm.data1 .word with
          | ok p => exact .trans (State.agentLoad_keeps hl) (State.memoryStore_keeps _ _ _)
          | error e => exact State.memoryError_keeps (State.agentLoad_stop hl)
    case isFalse =>
      cases hl : s.agentLoad s.dm.data1 w with
      | ok p => exact .ok ((((State.agentLoad_keeps hl).trans (.dm _ _)).trans (.addressUp _ _)).trans (.postExec _))
      | error e => exact State.memoryError_keeps (State.agentLoad_stop hl)

theorem State.runCommand_keeps (s : State) : KeepsResult s s.runCommand := by
  unfold State.runCommand
  dsimp only
  split
  · exact .ok (.refl s)
  · split
    · split
      · exact s.registerCommand_keeps
      · exact .ok (.cmdError s _)
    · split
      · split
        · exact s.memoryCommand_keeps
        · exact .ok (.cmdError s _)
      · exact .ok (.cmdError s _)

theorem State.autoData_keeps (s : State) (k : Nat) : KeepsResult s (s.autoData k) := by
  unfold State.autoData
  split
  · exact s.runCommand_keeps
  · exact .ok (.refl s)

theorem State.autoProgbuf_keeps (s : State) (k : Nat) : KeepsResult s (s.autoProgbuf k) := by
  unfold State.autoProgbuf
  split
  · exact s.runCommand_keeps
  · exact .ok (.refl s)

/-! ### The debug host -/

theorem State.resume_keeps (s : State) : KeepsResult s s.resume := by
  unfold State.resume
  split
  case isTrue => exact .refused _
  case isFalse hodd =>
    refine .ok ((Keeps.setPc (v := s.dbg.dpc) fun _ => by simpa using hodd).trans ?_)
    exact .of_eq rfl rfl rfl rfl rfl rfl

theorem State.writeDmcontrol_keeps (s : State) (v : Word) : KeepsResult s (s.writeDmcontrol v) := by
  have hfields : Keeps s (s.dmcontrolFields v) := .dm s _
  unfold State.writeDmcontrol
  dsimp only
  split
  · exact .ok (.dm s _)
  · split
    · exact .ok ((hfields.trans (.systemReset _)).trans (.dm _ _))
    · split
      · exact .ok (hfields.trans (.leaveReset _))
      · split
        · exact .trans hfields (State.resume_keeps _)
        · exact .ok hfields

theorem State.dmiWrite_keeps (s : State) (a : BitVec 7) (v : Word) : KeepsResult s (s.dmiWrite a v) := by
  unfold State.dmiWrite
  split
  case isTrue => exact s.writeDmcontrol_keeps v
  case isFalse =>
  split
  case isTrue => exact .ok (.refl s)
  case isFalse =>
  split
  case isTrue => exact .ok (.cmdError s _)
  case isFalse =>
  split
  case h_1 => exact .trans (.dm s _) (State.autoProgbuf_keeps _ _)
  case h_2 =>
  split
  case isTrue => exact .trans (.dm s _) (State.autoData_keeps _ _)
  case isFalse =>
  split
  case isTrue => exact .trans (.dm s _) (State.autoData_keeps _ _)
  case isFalse =>
  split
  case isTrue => exact .ok (.dm s _)
  case isFalse =>
  split
  case isTrue =>
    split
    · exact .ok (.refl s)
    · exact .trans (.dm s _) (State.runCommand_keeps _)
  case isFalse =>
  split
  case isTrue => exact .ok (.dm s _)
  case isFalse => exact .ok (.refl s)

theorem State.dmiRead_keeps (s : State) (a : BitVec 7) : KeepsResult s (s.dmiRead a) := by
  have hread (v : Word) (n : Nat) : Keeps s { s with dm := { s.dm with reply := v }, draws := n } :=
    .of_eq rfl rfl rfl rfl rfl rfl
  unfold State.dmiRead
  dsimp only
  split
  case isTrue => exact .ok ((hread _ _).trans (.cmdError _ _))
  case isFalse =>
    split
    · exact .trans (hread _ _) (State.autoProgbuf_keeps _ _)
    · split
      · exact .trans (hread _ _) (State.autoData_keeps _ _)
      · split
        · exact .trans (hread _ _) (State.autoData_keeps _ _)
        · exact .ok (hread _ _)

/-! ### Inputs -/

theorem Keeps.of_device (h : DeviceOnly s t) (hr : ReservedClear s.pfic → ReservedClear t.pfic) : Keeps s t :=
  .of_data (as := []) (.of_device h hr)

theorem Keeps.powerOnReset (s : State) : Keeps s s.powerOnReset := (Keeps.systemReset s).trans (.dm _ _)

theorem Keeps.agentWrite (s : State) (a : Word) (b : Byte) :
    Keeps s (((s.setBytes [a] [b]).agentBreaks a).agentSees [a.toNat] 0) := by
  have hset : DataStep [a] s (s.setBytes [a] [b]) :=
    ⟨(State.setBytes_only s _ _).dataOnly, fun c hc => State.byteAt_setBytes_other s _ _ c hc, State.setBytes_wf _ _, id⟩
  exact ((Keeps.of_data hset).trans (.agentBreaks _ _)).trans (.agentSees _ _ _)

theorem Keeps.ite {p : Prop} [Decidable p] (ht : Keeps s t) (hu : Keeps s u) : Keeps s (if p then t else u) := by
  split
  · exact ht
  · exact hu

theorem State.applyAct_keeps (s : State) (act : Act) : KeepsResult s (s.applyAct act) := by
  cases act with
  | chore c =>
    cases c with
    | tick => exact .ok (.ite (.refl s) (.of_device s.tick_device State.tick_reserved))
    | drain => exact .ok (.ite (.refl s) (.of_device s.drainOne_device State.drainOne_reserved))
  | line n => exact .ok (.ite (.refl s) (.of_device (s.setPending_device _) (State.setPending_reserved _)))
  | event => exact .ok (.ite (.refl s) (.of_eq rfl rfl rfl rfl rfl rfl))
  | agentWrite a b => exact .ok (.ite (.refl s) (.agentWrite s a b))
  | dmiWrite a v =>
    show KeepsResult s (if s.cfg.debuggerPresent = true then s.dmiWrite a v else .ok s)
    split
    · exact s.dmiWrite_keeps a v
    · exact .ok (.refl s)
  | dmiRead a =>
    show KeepsResult s (if s.cfg.debuggerPresent = true then s.dmiRead a else .ok s)
    split
    · exact s.dmiRead_keeps a
    · exact .ok (.refl s)
  | powerOn => exact .ok (.powerOnReset s)

theorem State.applyActs_keeps (acts : List Act) (s : State) : KeepsResult s (s.applyActs acts) := by
  induction acts generalizing s with
  | nil => exact .ok (.refl s)
  | cons act rest ih =>
    unfold State.applyActs
    have hact := s.applyAct_keeps act
    cases h : s.applyAct act with
    | ok s1 => exact .trans (hact s1 (.inl h)) (ih s1)
    | error e => exact .error fun u hu => hact u (.inr (hu ▸ h))

/-! ### Instructions at the pc -/

theorem State.fetchParcel_ok {b : Word} {p : Half} (h : s.fetchParcel b = .ok (p, t)) : t = s ∨ t = s.drawn := by
  have hbytes : (s.fetchBytes b).2 = s ∨ (s.fetchBytes b).2 = s.drawn := by
    unfold State.fetchBytes
    dsimp only
    split
    · exact .inl rfl
    · exact .inr rfl
  unfold State.fetchParcel at h
  dsimp only at h
  split at h
  · cases h
  · split at h
    · cases h
    · split at h
      case h_1 => split at h <;> cases h
      case h_2 => cases h
      case h_3 => cases h
      all_goals
        split at h
        case h_1 heq =>
          cases h
          rw [heq] at hbytes
          exact hbytes
        all_goals cases h

theorem State.fetchParcel_noRestart (s : State) (b : Word) (t : State) : s.fetchParcel b ≠ .error (.restart t) := by
  unfold State.fetchParcel
  dsimp only
  split
  · nofun
  · split
    · nofun
    · split
      case h_1 => split <;> nofun
      case h_2 => nofun
      case h_3 => nofun
      all_goals split <;> nofun

theorem Keeps.of_fetchParcel {b : Word} {p : Half} (h : s.fetchParcel b = .ok (p, t)) : Keeps s t := by
  rcases State.fetchParcel_ok h with rfl | rfl
  · exact .refl _
  · exact .drawn s

theorem State.fetch_keeps {f : Fetched} (h : s.fetch = .ok (f, t)) : Keeps s t := by
  unfold State.fetch at h
  cases h0 : s.fetchParcel s.pc with
  | error e => rw [h0] at h; cases h
  | ok p =>
    rw [h0] at h
    dsimp only at h
    split at h
    case isFalse => cases h; exact .of_fetchParcel h0
    case isTrue =>
      cases h1 : p.2.fetchParcel (s.pc + 2#32) with
      | error e => rw [h1] at h; cases h
      | ok q => rw [h1] at h; cases h; exact (Keeps.of_fetchParcel h0).trans (.of_fetchParcel h1)

theorem State.fetch_noRestart (s t : State) : s.fetch ≠ .error (.restart t) := by
  unfold State.fetch
  cases h0 : s.fetchParcel s.pc with
  | error e => intro he; cases he; exact State.fetchParcel_noRestart s _ t h0
  | ok p =>
    dsimp only
    split
    case isFalse => nofun
    case isTrue =>
      cases h1 : p.2.fetchParcel (s.pc + 2#32) with
      | error e => intro he; cases he; exact State.fetchParcel_noRestart _ _ t h1
      | ok q => nofun

theorem Keeps.pmpSettled (s : State) : Keeps s s.pmpSettled := .of_eq rfl rfl rfl rfl rfl rfl

theorem State.runInstr_keeps (s : State) : KeepsOut s s.runInstr := by
  unfold State.runInstr
  split
  case h_1 => exact .refused s _
  case h_2 => exact .raise s _ _
  case h_3 =>
    cases hf : s.fetch with
    | error e =>
      refine .trans (.pmpSettled s) (.stop fun u hu => ?_)
      exact absurd (hu ▸ hf) (s.fetch_noRestart u)
    | ok p =>
      have hp : Keeps s p.2.pmpSettled := (State.fetch_keeps hf).trans (.pmpSettled _)
      dsimp only
      split
      case h_1 i hi => exact .trans hp fun u hu => exec_keeps (wellFormed_of_decode hi) hu
      case h_2 => exact .trans hp (.raise _ _ _)
      all_goals exact .refused s _

theorem State.progbufStep_keeps (s : State) : KeepsOut s s.progbufStep := by
  unfold State.progbufStep
  split
  case h_1 => exact .refused s _
  case h_2 =>
    split
    case isTrue =>
      have hresume := s.resume_keeps
      cases hr : s.resume with
      | ok s1 => exact .next (hresume s1 (.inl hr))
      | error e => exact .stop fun u hu => hresume u (.inr (hu ▸ hr))
    case isFalse =>
      split
      case h_1 i hi => exact fun u hu => exec_keeps (wellFormed_of_decode hi) hu
      case h_2 => exact .next (.dm s _)
      all_goals exact .refused s _

theorem KeepsOut.afterStep {o : Out} (h : KeepsOut s o) : KeepsOut s (afterStep o) := by
  cases o with
  | next t => exact .next ((h t rfl).trans (.ite (.enterDebug t _ _) (.refl t)))
  | fault f => exact .fault s f
  | refused r => exact .refused s r

/-! ### The core's turn -/

/-- What a turn goes on with is kept. -/
def KeepsTurn (s : State) : Turn → Prop
  | .done o => KeepsOut s o
  | .progbuf t => Keeps s t
  | .interrupt _ t => Keeps s t
  | .run t => Keeps s t

theorem State.obeyHalt_keeps (s : State) : KeepsOut s s.obeyHalt := by
  unfold State.obeyHalt
  split
  · exact .next (.enterDebug s _ _)
  · split
    · exact .refused s _
    · exact .next (.enterDebug s _ _)
    · refine .next (Keeps.trans (t := { s with draws := s.draws + 2 }) ?_ (.enterDebug _ _ _))
      exact .of_eq rfl rfl rfl rfl rfl rfl

theorem State.awakeTurn_keeps (h : Keeps s t) (defer : Bool) : KeepsTurn s (t.awakeTurn defer) := by
  unfold State.awakeTurn
  split
  · exact h
  · split
    · exact h
    · split
      · exact h
      · exact h

theorem Keeps.awake (s : State) (k : SleepKind) (w : Wake) : Keeps s (s.awake k w) := .of_eq rfl rfl rfl rfl rfl rfl

theorem State.turn_keeps (s : State) (b : Boundary) : KeepsTurn s (s.turn b) := by
  unfold State.turn
  split
  case isTrue => exact KeepsOut.next (.refl s)
  case isFalse =>
  split
  case isTrue =>
    split
    · exact Keeps.refl s
    · exact KeepsOut.next (.refl s)
  case isFalse =>
  split
  case isTrue => exact s.obeyHalt_keeps
  case isFalse =>
  split
  case isTrue => exact KeepsOut.refused s _
  case isFalse =>
  split
  case h_1 => exact State.awakeTurn_keeps (.refl s) _
  case h_2 k _ =>
    split
    · exact KeepsOut.next (.refl s)
    · exact State.awakeTurn_keeps (.awake s k _) _
    · exact State.awakeTurn_keeps (.awake s k _) _

theorem KeepsTurn.trans {r : Turn} (h : Keeps s t) (hr : KeepsTurn t r) : KeepsTurn s r := by
  cases r with
  | done o => exact KeepsOut.trans h hr
  | progbuf u => exact Keeps.trans h hr
  | interrupt n u => exact Keeps.trans h hr
  | run u => exact Keeps.trans h hr

theorem State.atBoundary_keeps (s : State) : KeepsTurn s s.atBoundary := by
  have hpass : Keeps s s.passBoundary := .of_eq rfl rfl rfl rfl rfl rfl
  have hacts := s.passBoundary.applyActs_keeps s.boundary.acts
  unfold State.atBoundary
  cases h : s.passBoundary.applyActs s.boundary.acts with
  | ok s1 => exact .trans (hpass.trans (hacts s1 (.inl h))) (s1.turn_keeps _)
  | error e =>
    cases e with
    | exn e info => exact KeepsOut.raise s e info
    | fault f => exact KeepsOut.fault s f
    | refused r => exact KeepsOut.refused s r
    | restart s1 => exact KeepsOut.next (hpass.trans (hacts s1 (.inr h)))

/-- Every step keeps the form of the state, the parameters and the even pc. -/
theorem step_keeps (h : step s = .next t) : Keeps s t := by
  have hturn := s.atBoundary_keeps
  unfold step at h
  cases hb : s.atBoundary with
  | done o => rw [hb] at h hturn; exact hturn t h
  | progbuf s1 => rw [hb] at h hturn; exact Keeps.trans hturn (s1.progbufStep_keeps t h)
  | interrupt n s1 =>
    rw [hb] at h hturn
    exact Keeps.trans hturn (KeepsOut.afterStep (o := s1.takeInterrupt n) (fun _ => .of_trapEntry) t h)
  | run s1 => rw [hb] at h hturn; exact Keeps.trans hturn (s1.runInstr_keeps.afterStep t h)

end

/-- Settles O57. -/
theorem stepKeepsStateForm : Obligations.StepKeepsStateForm := fun _ _ hs h =>
  ⟨(step_keeps h).form hs, (step_keeps h).cfg⟩

/-- Settles O58. -/
theorem stepKeepsPcEven : Obligations.StepKeepsPcEven := fun _ _ hs h => (step_keeps h).even hs

/-- Settles O59: the reset state is what a reset leaves, and its parameters are even. -/
theorem resetHasInvariants : Obligations.ResetHasInvariants := by
  intro v
  dsimp only
  refine ⟨⟨Memory.reset_wf, ?_, Pfic.reset_reserved, ?_⟩, ?_, ?_⟩
  · exact ⟨Nat.zero_le _, fun _ => Nat.zero_le _⟩
  · exact pmpLegal_reset rfl
  · exact ⟨(by decide : State.reset.cfg.resetPc.getLsbD 0 = false), (by decide : State.reset.cfg.progbufBase.getLsbD 0 = false)⟩
  · exact (by decide : State.reset.pc.getLsbD 0 = false)

end Sys2Proof.Machine
end

section
/-! PROOFS. Loads and stores of memory: the value with its extension, the stored bytes, the encodings (40 R211 to R218,
44 R344, R345, R363, R369, 46 R441 to R448). -/

namespace Sys2Proof.Machine
open Sys2Proof

/-! ### Loaded values -/

theorem extract_setWidth {n : Nat} (x : BitVec n) (hn : n ≤ 32) : (x.setWidth 32).extractLsb' 0 n = x := by
  apply BitVec.eq_of_getLsbD_eq
  intro i hi
  simp [hi, hi.trans_le hn]

theorem assemble_byte (b0 : Byte) : assemble [b0] = b0.setWidth 32 := by
  simp [assemble]

theorem sext8_assemble (b0 : Byte) : sext8 (assemble [b0]) = b0.signExtend 32 := by
  rw [assemble_byte, sext8, extract_setWidth b0 (by decide)]

theorem zext8_assemble (b0 : Byte) : zext8 (assemble [b0]) = b0.setWidth 32 := by
  rw [assemble_byte, zext8, extract_setWidth b0 (by decide)]

theorem sext16_assemble (b0 b1 : Byte) : sext16 (assemble [b0, b1]) = (b1 ++ b0).signExtend 32 := by
  rw [assemble_half, sext16, extract_setWidth (b1 ++ b0) (by decide)]

theorem zext16_assemble (b0 b1 : Byte) : zext16 (assemble [b0, b1]) = (b1 ++ b0).setWidth 32 := by
  rw [assemble_half, zext16, extract_setWidth (b1 ++ b0) (by decide)]

/-! ### A load writes the value, a store its bytes -/

section
variable {s : State} {i : Instr} {rd src b : Reg} {a off v n : Word} {w : Width} {ext : Word → Word} {bs : List Byte}

theorem Loadable.writes (h : Loadable s a w bs) (he : exec i s = s.loadTo rd a w ext n) (hv : ext (assemble bs) = v) :
    Writes i s rd v (s.pc + n) :=
  writes_of_writeBack (by rw [he, h.loadTo, hv])

theorem Storable.stores (h : Storable s a w) (he : exec i s = s.storeFrom a w v n) : Stores i s a w v (s.pc + n) :=
  ⟨_, he.trans (h.storeFrom v n), h.effect v n⟩

end

/-! ### The encodings -/

/-- Settles O15. -/
theorem loadsFromMemory : Obligations.LoadsFromMemory := by
  intro s w b0 b1 b2 b3
  refine ⟨?lb, ?lbu, ?lh, ?lhu, ?lw⟩
  case lb => exact encodes_of_funct3 (by rw [← immI_bits]; rfl) fun h => h.writes (exec_lb ..) (sext8_assemble b0)
  case lbu => exact encodes_of_funct3 (by rw [← immI_bits]; rfl) fun h => h.writes (exec_lbu ..) (zext8_assemble b0)
  case lh => exact encodes_of_funct3 (by rw [← immI_bits]; rfl) fun h => h.writes (exec_lh ..) (sext16_assemble b0 b1)
  case lhu => exact encodes_of_funct3 (by rw [← immI_bits]; rfl) fun h => h.writes (exec_lhu ..) (zext16_assemble b0 b1)
  case lw => exact encodes_of_funct3 (by rw [← immI_bits]; rfl) fun h => h.writes (exec_lw ..) (assemble_word b0 b1 b2 b3)

/-- Settles O17. -/
theorem storesToRam : Obligations.StoresToRam := by
  intro s w
  refine ⟨?sb, ?sh, ?sw⟩
  case sb => exact encodes_of_funct3 (by rw [← immS_bits]; rfl) fun h => h.stores (exec_sb ..)
  case sh => exact encodes_of_funct3 (by rw [← immS_bits]; rfl) fun h => h.stores (exec_sh ..)
  case sw => exact encodes_of_funct3 (by rw [← immS_bits]; rfl) fun h => h.stores (exec_sw ..)

theorem cimmLw_bits (p : Half) : cimmLw (p.extractLsb' 12 1) (p.extractLsb' 10 2) (p.extractLsb' 5 2) = bitsLw p := by
  apply BitVec.eq_of_getLsbD_eq
  intro i h
  unfold bitsLw
  simp only [BitVec.getLsbD_setWidth, BitVec.getLsbD_append]
  interval_cases i <;> simp [cimmLw, fieldAt]

theorem cimmLwsp_bits (p : Half) :
    cimmLwsp (p.extractLsb' 12 1) (p.extractLsb' 5 2) (p.extractLsb' 2 3) =
      (p.extractLsb' 2 2 ++ p.extractLsb' 12 1 ++ p.extractLsb' 4 3 ++ 0#2).setWidth 8 := by
  apply BitVec.eq_of_getLsbD_eq
  intro i h
  simp only [BitVec.getLsbD_setWidth, BitVec.getLsbD_append]
  interval_cases i <;> simp [cimmLwsp, fieldAt]

theorem cimmSwsp_bits (p : Half) :
    cimmSwsp (p.extractLsb' 12 1) (p.extractLsb' 10 2) (p.extractLsb' 7 3) =
      (p.extractLsb' 7 2 ++ p.extractLsb' 9 4 ++ 0#2).setWidth 8 := by
  apply BitVec.eq_of_getLsbD_eq
  intro i h
  simp only [BitVec.getLsbD_setWidth, BitVec.getLsbD_append]
  interval_cases i <;> simp [cimmSwsp, fieldAt]

theorem decode16_cLwsp {p : Half} (hrd : p.extractLsb' 7 5 ≠ 0#5) (h : p &&& 0xE003#16 = 0x4002#16) :
    decode16 p =
      some (.cLwsp (p.extractLsb' 7 5) ((p.extractLsb' 2 2 ++ p.extractLsb' 12 1 ++ p.extractLsb' 4 3 ++ 0#2).setWidth 8)) := by
  rw [← reg5_bits] at hrd
  rw [decode16_of_funct3 h, ← reg5_bits, ← cimmLwsp_bits]
  exact if_neg hrd

theorem decode16_cLwsp_zero {p : Half} (h : p &&& 0xEF83#16 = 0x4002#16) : decode16 p = none := by
  rw [decode16_of_funct3_rd h]
  rfl

/-- Settles O16. -/
theorem compressedLoads : Obligations.CompressedLoads := by
  intro s p rd rs1 off b0 b1 b2 b3
  refine ⟨?cLw, ?cLwsp, ?reserved, ?cLbu, ?cLhu, ?cLbusp, ?cLhusp⟩
  case cLw =>
    refine encodes16_of_row (fun h => by rw [decode16_of_funct3 h, ← cimmLw_bits]; rfl) fun h => ?_
    rw [← creg_eq] at h ⊢
    exact h.writes (exec_cLw ..) (assemble_word b0 b1 b2 b3)
  case cLwsp =>
    exact fun hd => encodes16_of_row (decode16_cLwsp hd) fun h => h.writes (exec_cLwsp ..) (assemble_word b0 b1 b2 b3)
  case reserved => exact reserved_of_row decode16_cLwsp_zero
  case cLbu => exact fun h => h.writes (exec_cLbu ..) (zext8_assemble b0)
  case cLhu => exact fun h => h.writes (exec_cLhu ..) (zext16_assemble b0 b1)
  case cLbusp => exact fun h => h.writes (exec_cLbusp ..) (zext8_assemble b0)
  case cLhusp => exact fun h => h.writes (exec_cLhusp ..) (zext16_assemble b0 b1)

/-- Settles O18. -/
theorem compressedStores : Obligations.CompressedStores := by
  intro s p rs2 rs1 off
  refine ⟨?cSw, ?cSwsp, ?cSb, ?cSh, ?cSbsp, ?cShsp⟩
  case cSw =>
    refine encodes16_of_row (fun h => by rw [decode16_of_funct3 h, ← cimmLw_bits]; rfl) fun h => ?_
    rw [← creg_eq, ← creg_eq]
    rw [← creg_eq] at h
    exact h.stores (exec_cSw ..)
  case cSwsp =>
    refine encodes16_of_row (fun h => ?_) fun h => h.stores (exec_cSwsp ..)
    rw [decode16_of_funct3 h, ← reg5_bits_low, ← cimmSwsp_bits]
    rfl
  case cSb => exact fun h => h.stores (exec_cSb ..)
  case cSh => exact fun h => h.stores (exec_cSh ..)
  case cSbsp => exact fun h => h.stores (exec_cSbsp ..)
  case cShsp => exact fun h => h.stores (exec_cShsp ..)

end Sys2Proof.Machine
end
section
/-! PROOFS. The PMP check, the words of the spec's examples, `wfi` and the fences, the values after reset. -/

namespace Sys2Proof.Machine

open Sys2Proof

/-! ## The PMP check -/

@[simp] theorem Pmp.allows_single (p : Pmp) (priv : Priv) (k : AccessKind) (y : Word) :
    p.allows priv k [y] = p.allowsByte priv k y := by
  simp [Pmp.allows]

theorem Pmp.allowsByte_of_region {p : Pmp} {priv : Priv} {k : AccessKind} {y : Word} {i : Fin 4} (h : p.region y = some i) :
    p.allowsByte priv k y = true ↔
      (priv = .machine ∧ p.cfg[i].l = false) ∨ (k = .fetch ∧ p.cfg[i].x = true) ∨ (k = .load ∧ p.cfg[i].r = true) ∨
        (k = .store ∧ p.cfg[i].w = true) := by
  cases k <;> simp [Pmp.allowsByte, PmpCfg.permits, h]

theorem Pmp.allowsByte_of_noRegion {p : Pmp} {priv : Priv} {k : AccessKind} {y : Word} (h : p.region y = none) :
    p.allowsByte priv k y = true ↔ priv = .machine := by
  simp [Pmp.allowsByte, h]

/-- The model compares every byte with the first one; that is to compare all pairs. -/
theorem Pmp.allows_iff (p : Pmp) (priv : Priv) (k : AccessKind) (ys : List Word) :
    p.allows priv k ys = true ↔
      (∀ z ∈ ys, p.allowsByte priv k z = true) ∧ ∀ z ∈ ys, ∀ z' ∈ ys, p.region z = p.region z' := by
  simp only [Pmp.allows, Bool.and_eq_true, List.all_eq_true, beq_iff_eq]
  refine and_congr_right fun _ => ⟨fun h z hz z' hz' => (h z hz).trans (h z' hz').symm, fun h z hz => ?_⟩
  cases ys with
  | nil => cases hz
  | cons y ys => exact h z hz y List.mem_cons_self

/-- Settles O42. -/
theorem pmpDecides : Obligations.PmpDecides := by
  unfold Obligations.PmpDecides
  intro p priv k y ys
  simp only [Pmp.allows_single]
  refine ⟨fun i hi => Pmp.allowsByte_of_region hi, Pmp.allowsByte_of_noRegion, Pmp.allows_iff p priv k ys, ?_, ?_⟩
  · intro s hv hd
    have hc : s.cfg.variant.isV3A = false := hv
    simp [State.pmpOk, hc, hd]
  · intro s hv
    have hc : s.cfg.variant.isV3A = true := hv
    simp [State.pmpOk, hc]

/-! ## The spec's example words -/

/-- Settles O23: each word is decoded by evaluation of its fields. -/
theorem specWordsDecode : Obligations.SpecWordsDecode := by
  refine ⟨?lui, ?bge, ?sw, ?mulhsu, ?csrrs, ?mret, ?amoswap, ?cJal, ?cSwsp, ?rev8, ?sh2add, ?bclri⟩
  case cJal => exact decode_half (by decide) rfl rfl (.inl rfl)
  case cSwsp => exact decode_half (by decide) rfl rfl (.inl rfl)
  all_goals exact decode_full (by decide) rfl rfl

/-! ## Device writes that have taken effect -/

@[simp] theorem State.assertSources_deviceQueue (s : State) : s.assertSources.deviceQueue = s.deviceQueue := by
  unfold State.assertSources
  split <;> rfl

@[simp] theorem State.writeCfgr_deviceQueue (s : State) (v : Word) : (s.writeCfgr v).deviceQueue = s.deviceQueue := by
  unfold State.writeCfgr
  dsimp only
  split_ifs <;> rfl

@[simp] theorem State.writeStkCtlr_deviceQueue (s : State) (v : Word) : (s.writeStkCtlr v).deviceQueue = s.deviceQueue := by
  unfold State.writeStkCtlr
  split <;> rfl

@[simp] theorem State.writeIprior_deviceQueue (s : State) (k : BitVec 6) (w : Width) (ln : Nat) (v : Word) :
    (s.writeIprior k w ln v).deviceQueue = s.deviceQueue := by
  cases w <;> rfl

@[simp] theorem State.devEffect_deviceQueue (s : State) (r : DevReg) (w : Width) (ln : Nat) (v : Word) :
    (s.devEffect r w ln v).deviceQueue = s.deviceQueue := by
  cases r with
  | cfgr => exact s.writeCfgr_deviceQueue v
  | iprior k => exact s.writeIprior_deviceQueue k w ln v
  | iprr x => exact State.assertSources_deviceQueue _
  | stkCtlr => exact (State.assertSources_deviceQueue _).trans (s.writeStkCtlr_deviceQueue v)
  | stkSr => exact State.assertSources_deviceQueue _
  | _ => rfl

@[simp] theorem State.applyDev_deviceQueue (s : State) (d : DevWrite) : (s.applyDev d).deviceQueue = s.deviceQueue := by
  unfold State.applyDev
  split
  case h_1 => rfl
  case h_2 => exact State.devEffect_deviceQueue ..

theorem State.drainAll_deviceQueue (s : State) : s.drainAll.deviceQueue = [] := by
  suffices h : ∀ (ds : List DevWrite) (u : State), (ds.foldl State.applyDev u).deviceQueue = u.deviceQueue from h _ _
  intro ds
  induction ds with
  | nil => exact fun u => rfl
  | cons d ds ih => exact fun u => (ih _).trans (u.applyDev_deviceQueue d)

/-! ## `wfi` and the fences -/

theorem extract_bitsI (w : Word) (lo : Nat) (h : lo + 4 ≤ 12) : (bitsI w).extractLsb' lo 4 = w.extractLsb' (20 + lo) 4 := by
  apply BitVec.eq_of_getLsbD_eq
  intro j hj
  have hlt : lo + j < 12 := by omega
  simp [bitsI, hj, hlt, Nat.add_assoc]

theorem exec_fence_effect (fm pred succ : BitVec 4) (rs1 rd : Reg) (s : State) :
    ∃ t, exec (.fence fm pred succ rs1 rd) s = .next t ∧ t.deviceQueue = [] ∧ t.unseen = [] ∧ t.pc = s.pc + 4#32 ∧
      (∀ j, t.reg j = s.reg j) ∧ SameBytes s t := by
  have hd : DeviceOnly s s.drainAll := s.drainAll_device
  have hregs : s.drainAll.regs = s.regs := by unfold DeviceOnly at hd; rw [hd]
  have hpc : s.drainAll.pc = s.pc := by unfold DeviceOnly at hd; rw [hd]
  refine ⟨_, rfl, s.drainAll_deviceQueue, rfl, congrArg (· + 4#32) hpc, State.reg_congr hregs, ?_⟩
  exact State.byteAt_congr hd.mem_eq

/-- Settles O51. -/
theorem waitAndFences : Obligations.WaitAndFences := by
  unfold Obligations.WaitAndFences
  intro s w
  refine ⟨decode_full (by decide) rfl rfl, ?wfi, ?fence, ?fenceI⟩
  case wfi =>
    intro hq
    rw [exec_wfi, execWfi, State.goToSleep, State.drainAll_nil hq]
    split
    case isTrue => rfl
    case isFalse =>
      split
      case isTrue => split <;> rfl
      case isFalse => rfl
  case fence =>
    refine encodes_of_funct3 ?_ ⟨fun hq => ?_, ?_⟩
    · rw [← extract_bitsI w 8 (by decide), ← extract_bitsI w 4 (by decide), ← extract_bitsI w 0 (by decide), ← immI_bits]
      rfl
    · rw [exec_fence, execFence, State.drainAll_nil hq]
      rfl
    · exact exec_fence_effect ..
  case fenceI => exact encodes_of_funct3 (by rw [← immI_bits]; rfl) rfl

/-! ## After reset -/

/-- Settles O55. -/
theorem resetValues : Obligations.ResetValues := by
  unfold Obligations.ResetValues
  refine ⟨rfl, rfl, fun v => ?_⟩
  refine ⟨?reads, ?tdata1, ?dcsr, ?intsyscr, ?corecfgr, ?misa, rfl, rfl, rfl, rfl, rfl, ?isr, ?words⟩
  case misa =>
    intro hv
    rw [hv]
    rfl
  case isr => cases v <;> rfl
  case words =>
    simp [State.devWord, State.reset, State.readGisr, State.level, State.isV3A, nestStatus, flagAt, Csrs.reset, Mstatus.reset,
      Pfic.reset, SysTick.reset, DebugModule.reset, DebugModule.dmcontrol, bankWord]
  all_goals
    simp [State.csrRead, State.reset, Csrs.reset, Mstatus.reset, Mstatus.word, Mtvec.word, Mtvec.baseAddr, Inestcr.word,
      nestStatus, State.level, flagAt, fieldAt, Priv.bits, Pmp.reset, Pmp.cfgWord, PmpCfg.byte, PmpMode.bits, assemble,
      DebugCsrs.reset, Triggers.reset, Triggers.current, TriggerChannel.tdata1, Dcsr.word, Intsyscr.word, Corecfgr.word]

end Sys2Proof.Machine
end

section
/-! PROOFS. The supplied XW rows beside the table (30 R156, 46 R440). -/

namespace Sys2Proof.Machine
open Sys2Proof

/-- The table's row for a parcel, if the member has it. -/
def tableRow (c : Config) (p : Half) : Option RowMatch := (tableMatch p).filter fun x => x.2.onMember c

theorem decode_eq_instr_iff {c : Config} {f : Fetched} {i : Instr} :
    decode c f = .instr i ↔ f.alwaysIllegal = false ∧ decodeRow c f = some i := by
  unfold decode
  cases hf : f.alwaysIllegal with
  | true => simp
  | false =>
    cases hrow : decodeRow c f with
    | some j => simp
    | none => cases hv : c.variant.isV3A <;> simp

/-- On V3B/C every supplied row is a row of the member. -/
theorem decodeRow_half {c : Config} (hv : c.variant.isV3A = false) (p : Half) :
    decodeRow c (.half p) = (RowMatch.denser (tableRow c p) (decodeXw c.xw p)).map Prod.snd := by
  have hkeep : (decodeXw c.xw p).filter (fun x => x.2.onMember c) = decodeXw c.xw p := by
    cases hx : decodeXw c.xw p with
    | none => rfl
    | some z =>
      obtain ⟨⟨row, -, -, rfl⟩, -⟩ := decodeXw_eq_some hx
      simp [Instr.onMember, Config.has, hv, Option.filter]
  unfold decodeRow
  dsimp only
  rw [hkeep]
  rfl

theorem tableRow_mask {c : Config} {p : Half} {z : RowMatch} (h : tableRow c p = some z) : z.1 = maskOnes z.2.rowMask := by
  obtain ⟨hz, -⟩ := Option.filter_eq_some_iff.mp h
  obtain ⟨i, -, rfl⟩ := Option.map_eq_some_iff.mp hz
  rfl

/-- What a parcel decodes to without supplied rows is the table's row. -/
theorem decode_noXw_iff {c : Config} (hv : c.variant.isV3A = false) {p : Half} {i : Instr} :
    decode { c with xw := [] } (.half p) = .instr i ↔ p ≠ 0x0000#16 ∧ tableRow c p = some (maskOnes i.rowMask, i) := by
  have hnone : decodeRow { c with xw := [] } (.half p) = (tableRow c p).map Prod.snd := by
    rw [decodeRow_half (c := { c with xw := [] }) hv]
    cases ht : tableRow c p with
    | none => simp [RowMatch.denser, decodeXw, show tableRow { c with xw := [] } p = none from ht]
    | some z => simp [RowMatch.denser, decodeXw, show tableRow { c with xw := [] } p = some z from ht]
  rw [decode_eq_instr_iff, hnone]
  simp only [Fetched.alwaysIllegal, beq_eq_false_iff_ne, ne_eq, and_congr_right_iff]
  intro _
  cases ht : tableRow c p with
  | none => simp
  | some z =>
    have hz := tableRow_mask ht
    constructor
    · intro h
      obtain rfl : z.2 = i := Option.some.inj h
      rw [← hz]
    · intro h
      rw [Option.some.inj h]
      rfl

theorem decode_half_noMeet {c : Config} (hv : c.variant.isV3A = false) {p : Half}
    (h : ∀ row ∈ c.xw, ¬p &&& row.mask = row.pattern) : decode c (.half p) = decode { c with xw := [] } (.half p) := by
  have hrow : decodeRow c (.half p) = decodeRow { c with xw := [] } (.half p) := by
    rw [decodeRow_half hv, decodeRow_half (c := { c with xw := [] }) hv, decodeXw_eq_none.mpr h]
    rfl
  unfold decode
  rw [hrow]

theorem RowMatch.denser_of_le {n : Nat} {i : Instr} {y : Option RowMatch} (h : ∀ z, y = some z → z.1 ≤ n) :
    RowMatch.denser (some (n, i)) y = some (n, i) := by
  cases y with
  | none => rfl
  | some z => simp [RowMatch.denser, Nat.not_lt.mpr (h z rfl)]

theorem RowMatch.denser_of_lt {x : Option RowMatch} {n : Nat} {i : Instr} (h : ∀ z, x = some z → z.1 < n) :
    RowMatch.denser x (some (n, i)) = some (n, i) := by
  cases x with
  | none => rfl
  | some z => simp [RowMatch.denser, h z rfl]

theorem XwField.read_eq (f : XwField) (p : Half) :
    f.read p = if f.short then 8#5 + (p.extractLsb' f.lo 3).setWidth 5 else p.extractLsb' f.lo 5 := by
  unfold XwField.read
  rw [show fieldAt 5 (p.extractLsb' f.lo 3) 0 ||| 8#5 = 8#5 + (p.extractLsb' f.lo 3).setWidth 5 from creg_eq _]

/-- The offset is put together from the named bits alone. -/
theorem XwRow.getLsbD_offset (row : XwRow) (p : Half) {k : Nat} (hk : k < 32) :
    (row.offset p).getLsbD k = true ↔ ∃ e ∈ row.imm, e.2 = k ∧ p.getLsbD e.1 = true := by
  suffices h : ∀ (l : List (Nat × Nat)) (acc : Word),
      (l.foldl (fun acc b => acc ||| (if p.getLsbD b.1 then 1#32 <<< b.2 else 0#32)) acc).getLsbD k = true ↔
        acc.getLsbD k = true ∨ ∃ e ∈ l, e.2 = k ∧ p.getLsbD e.1 = true by
    exact (h row.imm 0#32).trans (by simp)
  intro l
  induction l with
  | nil => simp
  | cons b l ih =>
    intro acc
    have hbit : (if p.getLsbD b.1 then 1#32 <<< b.2 else 0#32 : Word).getLsbD k = true ↔ b.2 = k ∧ p.getLsbD b.1 = true := by
      cases hp : p.getLsbD b.1 with
      | false => simp
      | true =>
        simp [hk]
        omega
    rw [List.foldl_cons, ih, BitVec.getLsbD_or, Bool.or_eq_true, hbit, List.exists_mem_cons_iff, or_assoc]

/-- Settles O21. -/
theorem xwDecoding : Obligations.XwDecoding := by
  intro c p hv
  refine ⟨rfl, decode_half_noMeet hv, fun i hi hall => ?_, fun row hrow hp hmeets hdense htable => ?_⟩
  · obtain ⟨hp, ht⟩ := (decode_noXw_iff hv).mp hi
    have hle : ∀ z, decodeXw c.xw p = some z → z.1 ≤ maskOnes i.rowMask := fun z hz => by
      obtain ⟨⟨row, hr, hm, rfl⟩, -⟩ := decodeXw_eq_some hz
      exact hall row hr hm
    refine decode_eq_instr_iff.mpr ⟨by simpa [Fetched.alwaysIllegal] using hp, ?_⟩
    rw [decodeRow_half hv, ht, RowMatch.denser_of_le hle]
    rfl
  · have hlt : ∀ z, tableRow c p = some z → z.1 < maskOnes row.mask := fun z hz => by
      have hmask := tableRow_mask hz
      rw [hmask]
      exact htable z.2 ((decode_noXw_iff hv).mpr ⟨hp, by rw [← hmask]; exact hz⟩)
    have hdec : decode c (.half p) = .instr (row.instr p) := by
      refine decode_eq_instr_iff.mpr ⟨by simpa [Fetched.alwaysIllegal] using hp, ?_⟩
      rw [decodeRow_half hv, decodeXw_of_densest hrow hmeets hdense, RowMatch.denser_of_lt hlt]
      rfl
    refine ⟨row.data.read p, row.base.read p, row.offset p, XwField.read_eq row.data p, XwField.read_eq row.base p,
      fun k hk => XwRow.getLsbD_offset row p hk, hdec.trans (congrArg Decoded.instr ?_)⟩
    cases hop : row.op <;> simp [XwRow.instr, hop]

end Sys2Proof.Machine
end

section
/-! PROOFS. The boundary where nothing is due, and the fetch that delivers the instruction's bits (60 R513, 20 R107). -/

namespace Sys2Proof.Machine
open Sys2Proof

/-! ### Fetch -/

theorem parcel_bytes (p : Half) : parcel (p.extractLsb' 0 8) (p.extractLsb' 8 8) = p := by
  apply BitVec.eq_of_getLsbD_eq
  intro i hi
  interval_cases i <;> simp [parcel, fieldAt]

theorem joinParcels_halves (w : Word) : joinParcels (w.extractLsb' 0 16) (w.extractLsb' 16 16) = w := by
  apply BitVec.eq_of_getLsbD_eq
  intro i hi
  interval_cases i <;> simp [joinParcels, fieldAt]

/-- No recorded store wrote one of the two bytes, so fetch sees memory as it is. -/
theorem State.fetchBytes_seen {s : State} {b : Word}
    (h : ∀ o ∈ s.stale, ∀ e ∈ o, e.1 ≠ b.toNat ∧ e.1 ≠ (b + 1#32).toNat) :
    s.fetchBytes b = ((s.byteAt b, s.byteAt (b + 1#32)), s) := by
  have hn : storesOver s.stale [b.toNat, (b + 1#32).toNat] = 0 :=
    storesOver_zero fun o ho e he => by simpa using h o ho e he
  rw [State.fetchBytes]
  exact if_pos hn

theorem ParcelReady.fetchParcel {s : State} {b : Word} {p : Half} (h : ParcelReady s b p) :
    s.fetchParcel b = .ok (p, s) := by
  have hbytes : s.fetchBytes b = ((some (p.extractLsb' 0 8), some (p.extractLsb' 8 8)), s) := by
    rw [State.fetchBytes_seen h.seen, h.low, h.high]
  have hmem : s.target (Width.half.addrs b) = .ram ∨ s.target (Width.half.addrs b) = .rom := h.memory
  have hallowed : s.pmpOk .fetch (Width.half.addrs b) = true := h.allowed
  have hsettled : s.pmpRelied (Width.half.addrs b) = false := h.settled
  obtain hmem | hmem := hmem <;> simp [State.fetchParcel, hsettled, hallowed, hmem, hbytes, parcel_bytes]

theorem FetchReady.fetch {s : State} {f : Fetched} (h : FetchReady s f) : s.fetch = .ok (f, s) := by
  cases f with
  | half p =>
    obtain ⟨hlow, hp⟩ := h
    have hshort : Half.isLong p = false := by simpa [Half.isLong] using hlow
    simp [State.fetch, hp.fetchParcel, hshort]
  | full w =>
    obtain ⟨hlow, hp, hq⟩ := h
    have hlong : Half.isLong (w.extractLsb' 0 16) = true := by
      rw [Half.isLong, beq_iff_eq, ← hlow]
      apply BitVec.eq_of_getLsbD_eq
      intro i hi
      interval_cases i <;> simp
    simp [State.fetch, hp.fetchParcel, hq.fetchParcel, hlong, joinParcels_halves]

theorem ParcelReady.drawn {s : State} {b : Word} {p : Half} (h : ParcelReady s b p) : ParcelReady s.drawn b p :=
  ⟨h.settled, h.allowed, h.memory, h.seen, h.low, h.high⟩

theorem FetchReady.drawn {s : State} {f : Fetched} (h : FetchReady s f) : FetchReady s.drawn f := by
  cases f with
  | half p => exact ⟨h.1, h.2.drawn⟩
  | full w => exact ⟨h.1, h.2.1.drawn, h.2.2.drawn⟩

/-! ### The boundary -/

/-- Nothing keeps the core from running the instruction at `pc` but, perhaps, a trigger on it. -/
structure BoundaryFree (s : State) : Prop where
  env : s.env = []
  quiet : s.quiet = true
  notHeld : s.dm.ndmreset = false
  notHalted : s.debugMode = false
  noHaltRequest : s.dm.haltreq = false
  awake : s.sleep = none
  noExc : s.pending 3#8 = false
  noInterrupt : s.selectInterrupt = none

theorem Undisturbed.free {s : State} (h : Undisturbed s) : BoundaryFree s :=
  ⟨h.env, h.quiet, h.notHeld, h.notHalted, h.noHaltRequest, h.awake, h.noExc, h.noInterrupt⟩

/-- A boundary without inputs. -/
theorem State.atBoundary_noActs {s : State} (h : s.boundary.acts = []) : s.atBoundary = s.passBoundary.turn s.boundary := by
  rw [State.atBoundary, h]
  rfl

/-- An awake core that nothing holds looks at its interrupts. -/
theorem State.turn_awake {s : State} (b : Boundary) (hheld : s.dm.ndmreset = false) (hdebug : s.debugMode = false)
    (hhalt : s.obeysHalt = false) (hexc : s.pending 3#8 = false) (hawake : s.sleep = none) :
    s.turn b = s.awakeTurn b.defer := by
  simp [State.turn, hheld, hdebug, hhalt, hexc, hawake]

theorem State.obeysHalt_noRequest {s : State} (h : s.dm.haltreq = false) : s.obeysHalt = false := by
  simp [State.obeysHalt, h]

theorem BoundaryFree.step_eq {s : State} (h : BoundaryFree s) : step s = afterStep s.drawn.runInstr := by
  have hacts : s.boundary.acts = [] := by simp [State.boundary, h.env, h.quiet]
  have hpass : s.passBoundary = s.drawn := by rw [State.passBoundary, h.env, List.tail_nil, ← h.env]; rfl
  have hturn : s.atBoundary = .run s.drawn := by
    rw [State.atBoundary_noActs hacts, hpass, State.turn_awake (s := s.drawn) _ h.notHeld h.notHalted (State.obeysHalt_noRequest h.noHaltRequest)
      h.noExc h.awake, State.awakeTurn, show s.drawn.selectInterrupt = none from h.noInterrupt]
  rw [step, hturn]

/-! ### The instruction at `pc` -/

section
variable {s u : State} {f : Fetched}

theorem State.runInstr_instr {i : Instr} (ht : s.triggered .fetch s.pc = .pass) (hf : s.fetch = .ok (f, u))
    (hd : decode s.cfg f = .instr i) : s.runInstr = exec i u.pmpSettled := by
  simp [State.runInstr, ht, hf, hd]

theorem State.runInstr_illegal (ht : s.triggered .fetch s.pc = .pass) (hf : s.fetch = .ok (f, u))
    (hd : decode s.cfg f = .illegal) : s.runInstr = u.pmpSettled.raise .illegal f.bits := by
  simp [State.runInstr, ht, hf, hd]

theorem State.runInstr_unknown (ht : s.triggered .fetch s.pc = .pass) (hf : s.fetch = .ok (f, u))
    (hd : decode s.cfg f = .unknown) : s.runInstr = .refused (.unknownEncoding f.bits) := by
  simp [State.runInstr, ht, hf, hd]

theorem State.runInstr_stop {e : Stop} (ht : s.triggered .fetch s.pc = .pass) (hf : s.fetch = .error e) :
    s.runInstr = s.pmpSettled.stop e := by
  simp [State.runInstr, ht, hf]

end

/-- Settles O24. -/
theorem stepRunsDecoded : Obligations.StepRunsDecoded := by
  intro s f i h hf hd
  rw [h.free.step_eq, State.runInstr_instr (s := s.drawn) h.noTrigger hf.drawn.fetch hd]
  rfl

/-! ### Bits of no row -/

theorem decode_of_noInstr {c : Config} {f : Fetched} (h : ∀ i, decode c f ≠ .instr i) :
    decode c f =
      if c.variant.isV3A = true ∨ f = .half 0x0000#16 ∨ f = .full 0xFFFFFFFF#32 then .illegal else .unknown := by
  have hfixed : f.alwaysIllegal = true ↔ f = .half 0x0000#16 ∨ f = .full 0xFFFFFFFF#32 := by
    cases f <;> simp [Fetched.alwaysIllegal]
  have hrow : f.alwaysIllegal = false → decodeRow c f = none := fun hf =>
    Option.eq_none_iff_forall_ne_some.mpr fun i hi => h i (decode_eq_instr_iff.mpr ⟨hf, hi⟩)
  simp only [← hfixed]
  unfold decode
  cases hf : f.alwaysIllegal with
  | true => simp
  | false => simp [hrow hf]

theorem TrapReady.of_fields {s u : State} {n : IrqNum} (h : TrapReady s n) (hq : u.deviceQueue = s.deviceQueue)
    (hn : u.nest = s.nest) (hc : u.cfg = s.cfg) (hp : u.pfic = s.pfic) (hd : u.debugMode = s.debugMode) : TrapReady u n where
  drained := hq.trans h.drained
  room := by rw [State.level, hn]; exact h.room
  noVtf := (State.vtfMatches_congr hc (by rw [hp]) (by rw [hp]) n).trans h.noVtf
  running := hd.trans h.running

/-- Settles O22. -/
theorem unknownWords : Obligations.UnknownWords := by
  intro s f h hf
  refine ⟨decode_of_noInstr, fun hd target hready => ?_, fun hd => ?_⟩
  · have hready0 : ExceptionReady s.drawn.pmpSettled Exc.illegal.code target :=
      ⟨hready.1.of_fields rfl rfl rfl rfl rfl, hready.2⟩
    obtain ⟨t, ht, htaken⟩ := hready0.raise_taken (by decide) f.bits
    refine ⟨t, ?_, htaken⟩
    rw [h.free.step_eq, State.runInstr_illegal (s := s.drawn) h.noTrigger hf.drawn.fetch hd, ht]
  · rw [h.free.step_eq, State.runInstr_unknown (s := s.drawn) h.noTrigger hf.drawn.fetch hd]
    rfl

end Sys2Proof.Machine
end

section
/-! PROOFS. Pending bits, interrupt entry at the boundary, the VTF channels, sleep, the SysTick tick (60 R512 to R565,
61 R605 to R613). -/

namespace Sys2Proof.Machine
open Sys2Proof

/-! ### Pending bits -/

theorem getLsbD_irqBit (n m : IrqNum) : (irqBit n).getLsbD m.toNat = true ↔ m = n := by
  have hm := m.isLt
  simp only [irqBit, BitVec.getLsbD_shiftLeft, BitVec.getLsbD_one, Bool.and_eq_true, Bool.not_eq_true', decide_eq_true_eq,
    decide_eq_false_iff_not, ← BitVec.toNat_inj]
  omega

theorem getLsbD_pendableMask (n : IrqNum) :
    pendableMask.getLsbD n.toNat = true ↔ n = 2#8 ∨ n = 3#8 ∨ isProgrammable n = true := by
  revert n
  decide

theorem State.pending_clearPending (s : State) (mask : BitVec 256) (n : IrqNum) :
    (s.clearPending mask).pending n = true ↔ s.pending n = true ∧ mask.getLsbD n.toNat = false := by
  have hn := n.isLt
  simp [State.pending, State.clearPending, hn]

theorem State.pending_setPending (s : State) (mask : BitVec 256) (n : IrqNum) :
    (s.setPending mask).pending n = true ↔
      s.pending n = true ∨ (mask.getLsbD n.toNat = true ∧ pendableMask.getLsbD n.toNat = true) := by
  have hn := n.isLt
  simp only [State.pending, State.setPending, BitVec.getLsbD_or, BitVec.getLsbD_and, BitVec.getLsbD_not, hn, decide_true,
    Bool.true_and, Bool.or_eq_true, Bool.and_eq_true, Bool.not_eq_true']
  cases s.pfic.pend.getLsbD n.toNat <;> simp

/-- Every source that asserts its request has its number pending. -/
theorem State.pending_assertSources (s : State) (n : IrqNum) :
    s.assertSources.pending n = true ↔ s.pending n = true ∨ SourceAsserts s n := by
  cases hv : s.isV3A with
  | true => simp [State.assertSources_v3a hv, SourceAsserts, hv]
  | false =>
    have hbits : ((if s.stk.stie && s.stk.cntif then irqBit 12#8 else 0#256) ||| (if s.stk.swie then irqBit 14#8 else 0#256) :
        BitVec 256).getLsbD n.toNat = true ↔
          (n = 12#8 ∧ s.stk.stie = true ∧ s.stk.cntif = true) ∨ (n = 14#8 ∧ s.stk.swie = true) := by
      rw [BitVec.getLsbD_or, Bool.or_eq_true]
      refine or_congr ?_ ?_
      · split
        case isTrue h => simpa [getLsbD_irqBit] using fun _ => h
        case isFalse h => simpa using fun _ => h
      · split
        case isTrue h => simpa [getLsbD_irqBit] using fun _ => h
        case isFalse h => simpa using fun _ => h
    rw [State.assertSources_v3bc (by simp [hv]), State.pending_setPending, hbits]
    refine or_congr_right ⟨fun h => ⟨hv, h.1⟩, fun h => ⟨h.2, ?_⟩⟩
    obtain ⟨rfl, -⟩ | ⟨rfl, -⟩ := h.2 <;> decide

/-- `PendOnEntry` (60 R565): the entered number is pending no more, but for a source that still asserts. -/
theorem State.pending_pendOnEntry (s : State) (n m : IrqNum) :
    (s.pendOnEntry n).pending m = true ↔
      if s.cfg.pendClearOnEntry then (m ≠ n ∧ s.pending m = true) ∨ SourceAsserts s m else s.pending m = true := by
  unfold State.pendOnEntry
  split
  case isTrue =>
    have hbit : (irqBit n).getLsbD m.toNat = false ↔ m ≠ n := by rw [← Bool.not_eq_true, getLsbD_irqBit]
    rw [State.pending_assertSources, State.pending_clearPending, hbit, and_comm]
    exact Iff.rfl
  case isFalse => exact Iff.rfl

/-! ### Entry of an interrupt -/

theorem State.awakeTurn_none {s : State} (h : s.selectInterrupt = none) (d : Bool) : s.awakeTurn d = .run s := by
  rw [State.awakeTurn, h]

theorem State.awakeTurn_some {s : State} {n : IrqNum} (h : s.selectInterrupt = some n)
    (hstep : s.dbg.dcsr.step = true → s.dbg.dcsr.stepie = true) : s.awakeTurn false = .interrupt n s := by
  have hfree : (s.dbg.dcsr.step && !s.dbg.dcsr.stepie) = false := by
    cases hs : s.dbg.dcsr.step with
    | false => rfl
    | true => simp [hstep hs]
  simp [State.awakeTurn, h, hfree]

theorem State.atBoundary_env {s : State} {d wake : Bool} {rest : List Boundary} (h : s.env = ⟨[], d, wake⟩ :: rest) :
    s.atBoundary = State.turn { s with env := rest, draws := s.draws + 1 } ⟨[], d, wake⟩ := by
  have hb : s.boundary = ⟨[], d, wake⟩ := by rw [State.boundary, h]
  have hp : s.passBoundary = { s with env := rest, draws := s.draws + 1 } := by rw [State.passBoundary, h]; rfl
  rw [State.atBoundary_noActs (by rw [hb]), hp, hb]

theorem step_of_done {s : State} {o : Out} (h : s.atBoundary = .done o) : step s = o := by rw [step, h]

theorem step_of_run {s u : State} (h : s.atBoundary = .run u) : step s = afterStep u.runInstr := by rw [step, h]

theorem step_of_interrupt {s u t : State} {n : IrqNum} (h : s.atBoundary = .interrupt n u) (ht : u.takeInterrupt n = .next t) :
    step s = afterStep (.next t) := by
  rw [step, h]
  exact congrArg afterStep ht

/-- The entry of an interrupt that is ready, with what becomes of the pending bits. -/
theorem TrapReady.takeInterrupt {s : State} {n : IrqNum} {target : Word} (h : TrapReady s n) (ht : TargetIs s n target) :
    ∃ t, s.takeInterrupt n = .next t ∧ TrapTaken s t true (n.setWidth 32) n 0#32 s.pc target ∧
      t.pfic = (s.pendOnEntry n).pfic :=
  State.trapEntry_taken (t := ⟨true, n.setWidth 32, n, n, 0#32, s.pc⟩) h ht

/-- Settles O45. -/
theorem interruptEntry : Obligations.InterruptEntry := by
  intro s n target wake rest henv hheld hhalt hawake hexc hstep hsel hready htarget s0
  have hturn : s.atBoundary = .interrupt n s0 := by
    rw [State.atBoundary_env henv,
      State.turn_awake (s := s0) _ hheld hready.running (State.obeysHalt_noRequest hhalt) hexc hawake]
    exact State.awakeTurn_some (s := s0) hsel hstep
  have hready0 : TrapReady s0 n := hready.of_fields rfl rfl rfl rfl rfl
  obtain ⟨t, ht, htaken, hpfic⟩ := hready0.takeInterrupt (target := target) htarget
  refine ⟨t, step_of_interrupt hturn ht, htaken, fun m => ?_⟩
  rw [hpfic]
  exact s0.pending_pendOnEntry n m

/-! ### VTF channels -/

/-- Whatever the target: the state entered, less the pc, is that of `enterTrap`. -/
theorem State.enterTrap_taken (s : State) (t : TrapReq) (target : Word) (hl : s.level < 2) :
    TrapTaken s ((s.enterTrap t).setPc target) t.interrupt t.code t.actidx t.info t.epc target := by
  have he := s.enterTrap_eq t hl
  have hcsr := s.enterTrap_csr t
  have hcause : t.cause = (if t.interrupt then 0x80000000#32 else 0#32) ||| t.code := by
    unfold TrapReq.cause flagAt
    cases t.interrupt <;> rfl
  have hpfic : (s.enterTrap t).pfic = { s.pfic with pend := (s.enterTrap t).pfic.pend } := by
    rw [he]
    dsimp only
    split
    case isTrue => rw [s.pendOnEntry_only t.vec]
    case isFalse => rfl
  generalize hE : s.enterTrap t = e at *
  refine
    { cause := (congrArg Csrs.mcause hcsr).trans hcause
      epc := congrArg Csrs.mepc hcsr
      value := congrArg Csrs.mtval hcsr
      mpie := congrArg (fun c => c.mstatus.mpie) hcsr
      mpp := congrArg (fun c => c.mstatus.mpp) hcsr
      mie := congrArg (fun c => c.mstatus.mie) hcsr
      priv := by rw [he]; rfl
      nest := by rw [he]; rfl
      frame := by rw [he]; rfl
      pc := rfl
      regs := fun j => by rw [he]; rfl
      memory := fun a => by rw [he]; rfl
      reservation := by rw [he]; rfl
      exception := fun hk => ?_
      rest := ?_ }
  · rw [he, hk]
    exact ⟨rfl, rfl⟩
  · have hcs : e.csr = { s.csr with mstatus := e.csr.mstatus, mepc := e.csr.mepc, mcause := e.csr.mcause, mtval := e.csr.mtval } := by
      rw [hcsr]
    generalize e.csr = c at he hcs
    subst he
    simp only [State.setPc, State.mk.injEq, true_and, and_true]
    exact ⟨hcs, hpfic⟩

theorem State.trapEntry_of_target {s : State} {t : TrapReq} {target : Word} (hq : s.deviceQueue = []) (hl : s.level < 2)
    (ht : (s.enterTrap t).trapTarget t = .ok (target, s.enterTrap t)) :
    s.trapEntry t = .next ((s.enterTrap t).setPc target) := by
  have ho : s.drainAll.overflow (s.level + 1) = .ok s := by
    rw [State.drainAll_nil hq, State.overflow, if_pos (by omega)]
  simp [State.trapEntry, ho, ht]

/-- The only channel that matches gives the target. -/
theorem State.trapTarget_vtf {s : State} {t : TrapReq} {i : Fin 4} (hm : s.vtfMatches t.vec = [i]) (hi : t.interrupt = true)
    (hp : isProgrammable t.vec = true) (heven : (s.vtfTarget i).getLsbD 0 = false) :
    s.trapTarget t = .ok (s.vtfTarget i, s) := by
  have heven' : (s.vtfTarget i)[0] = false := heven
  simp [State.trapTarget, hm, hi, hp, heven']

theorem vtfTarget_v3a (b : BitVec 4) (a : Word) :
    fieldAt 32 b 28 ||| (a &&& 0x00FFFFFF#32) = (b ++ 0#4 ++ a.extractLsb' 0 24).setWidth 32 := by
  apply BitVec.eq_of_getLsbD_eq
  intro j hj
  simp only [BitVec.getLsbD_setWidth, BitVec.getLsbD_append]
  interval_cases j <;> simp [fieldAt]

theorem vtfTarget_v3bc (a : Word) : a &&& 0xFFFFFFFE#32 = (a.extractLsb' 1 31 ++ 0#1).setWidth 32 := by
  apply BitVec.eq_of_getLsbD_eq
  intro j hj
  simp only [BitVec.getLsbD_setWidth, BitVec.getLsbD_append]
  interval_cases j <;> simp

theorem State.vtfTarget_eq (s : State) (i : Fin 4) :
    s.vtfTarget i =
      if s.isV3A then (s.pfic.vtfBase ++ 0#4 ++ s.pfic.vtfAddr[i].extractLsb' 0 24).setWidth 32
      else (s.pfic.vtfAddr[i].extractLsb' 1 31 ++ 0#1).setWidth 32 := by
  rw [State.vtfTarget, vtfTarget_v3a, vtfTarget_v3bc]

theorem filter_finRange_eq (i : Fin 4) : (List.finRange 4).filter (fun j => decide (j = i)) = [i] := by
  revert i
  decide

/-- Under the default rule a channel matches a programmable number just as the obligation says it names it. -/
theorem State.vtfMatches_eq {s : State} {n : IrqNum} {i : Fin 4} (hrule : s.cfg.vtfRule = .programmable)
    (hn : isProgrammable n = true)
    (h : ∀ j : Fin 4,
      (if s.isV3A then s.pfic.vtfAddr[j].extractLsb' 24 8 = n
        else s.pfic.vtfAddr[j].getLsbD 0 = true ∧ s.pfic.vtfId[j] = n) ↔ j = i) : s.vtfMatches n = [i] := by
  have hmatch : ∀ j : Fin 4, (s.vtfOn j && s.vtfNumber j == n) = decide (j = i) := fun j => by
    rw [Bool.eq_iff_iff, decide_eq_true_iff, ← h j, Bool.and_eq_true, beq_iff_eq]
    cases hv : s.isV3A with
    | true =>
      simp only [State.vtfOn, State.vtfNumber, hv, hrule, if_true]
      exact ⟨fun hj => hj.2, fun hj => ⟨by rw [hj]; exact hn, hj⟩⟩
    | false => simp [State.vtfOn, State.vtfNumber, hv]
  rw [State.vtfMatches, List.filter_congr fun j _ => hmatch j, filter_finRange_eq]

/-- Settles O47. -/
theorem vtfTarget : Obligations.VtfTarget := by
  intro s n i hq hl hrule hn hnames entry target heven
  have hprog : isProgrammable n = true := (isProgrammable_iff n).mpr hn
  have htarget : s.vtfTarget i = target := s.vtfTarget_eq i
  let req : TrapReq := ⟨true, n.setWidth 32, n, n, 0#32, s.pc⟩
  have he := s.enterTrap_eq req hl
  have hpfic : (s.enterTrap req).pfic = { s.pfic with pend := (s.enterTrap req).pfic.pend } := by
    rw [he]
    exact congrArg State.pfic (s.pendOnEntry_only n)
  have hcfg : (s.enterTrap req).cfg = s.cfg := by rw [he]
  have hvtf : (s.enterTrap req).vtfTarget i = target := by
    rw [← htarget, State.vtfTarget, State.vtfTarget, State.isV3A, State.isV3A, hcfg, hpfic]
  have hmatches : (s.enterTrap req).vtfMatches req.vec = [i] := by
    rw [State.vtfMatches_congr (s := s) hcfg (by rw [hpfic]) (by rw [hpfic])]
    exact State.vtfMatches_eq hrule hprog hnames
  have htrap : (s.enterTrap req).trapTarget req = .ok (target, s.enterTrap req) := by
    rw [State.trapTarget_vtf hmatches rfl hprog (by rw [hvtf]; exact heven), hvtf]
  exact ⟨_, State.trapEntry_of_target hq hl htrap, s.enterTrap_taken req target hl⟩

/-! ### Sleep -/

/-- A pending number that wakes the core (61 R611, R612): NMI, or a programmable, enabled one above the threshold. -/
def WakeCause (s : State) : Prop :=
  s.pending 2#8 = true ∨
    ∃ n : IrqNum, (n = 12#8 ∨ n = 14#8 ∨ 16 ≤ n.toNat) ∧ s.pending n = true ∧ s.enabled n = true ∧
      (s.pfic.threshold = 0#8 ∨ (s.prioOf n).toNat < s.pfic.threshold.toNat)

theorem State.enabled_nmi (s : State) : s.enabled 2#8 = true := by
  have hfixed : s.fixedEnables.getLsbD 2 = true := by
    unfold State.fixedEnables
    cases s.isV3A <;> rfl
  have : (s.pfic.en ||| s.fixedEnables).getLsbD 2 = true := by rw [BitVec.getLsbD_or, hfixed, Bool.or_true]
  exact this

theorem State.pend_and_enables_ne_zero {s : State} {n : IrqNum} (hp : s.pending n = true) (he : s.enabled n = true) :
    s.pfic.pend &&& s.enables ≠ 0#256 := by
  intro h
  have hbit : (s.pfic.pend &&& s.enables).getLsbD n.toNat = true := by
    rw [BitVec.getLsbD_and, Bool.and_eq_true]
    exact ⟨hp, he⟩
  rw [h] at hbit
  simp at hbit

theorem State.wakeInterrupt_iff (s : State) : s.wakeInterrupt = true ↔ WakeCause s := by
  unfold State.wakeInterrupt WakeCause
  split
  case isTrue h =>
    refine ⟨fun hf => absurd hf Bool.false_ne_true, fun hc => ?_⟩
    obtain hnmi | ⟨n, -, hp, he, -⟩ := hc
    · exact absurd h (State.pend_and_enables_ne_zero hnmi s.enabled_nmi)
    · exact absurd h (State.pend_and_enables_ne_zero hp he)
  case isFalse =>
    rw [Bool.or_eq_true, List.any_eq_true]
    refine or_congr_right ?_
    simp only [Bool.and_eq_true, isProgrammable_iff, State.aboveThreshold_iff, and_assoc]
    refine ⟨fun ⟨k, _, hk⟩ => ⟨BitVec.ofNat 8 k, hk⟩, fun ⟨n, hn⟩ => ⟨n.toNat, List.mem_range.mpr n.isLt, ?_⟩⟩
    rw [BitVec.ofNat_toNat, BitVec.setWidth_eq]
    exact hn

section
variable {s : State} {k : SleepKind} {b : Boundary}

/-- A sleeping core that nothing holds looks at its wake-up condition. -/
theorem State.turn_asleep (hheld : s.dm.ndmreset = false) (hdebug : s.debugMode = false) (hhalt : s.dm.haltreq = false)
    (hexc : s.pending 3#8 = false) (hsleep : s.sleep = some k) :
    (s.wakeUp k b.wake = .sleep → s.turn b = .done (.next s)) ∧
      (s.wakeUp k b.wake = .byInterrupt → s.turn b = State.awakeTurn { s with sleep := none } false) ∧
        (s.wakeUp k b.wake = .goesOn → s.turn b = (s.awake k .goesOn).awakeTurn b.defer) := by
  have hbyInterrupt : s.awake k .byInterrupt = { s with sleep := none } := by
    cases k <;> rfl
  refine ⟨fun hw => ?_, fun hw => ?_, fun hw => ?_⟩
  all_goals simp [State.turn, hheld, hdebug, State.obeysHalt_noRequest hhalt, hexc, hsleep, hw, hbyInterrupt]

theorem State.wakeUp_byInterrupt {free : Bool} (hc : WakeCause s)
    (he : ¬((k = .wfe ∧ s.eventPending = true) ∧ free = true)) : s.wakeUp k free = .byInterrupt := by
  rw [State.wakeUp, if_pos (s.wakeInterrupt_iff.mpr hc), if_neg (by rwa [← and_assoc])]

theorem State.wakeUp_event {free : Bool} (he : k = .wfe ∧ s.eventPending = true) (hc : ¬WakeCause s ∨ free = true) :
    s.wakeUp k free = .goesOn := by
  by_cases hw : s.wakeInterrupt = true
  · have hfree : free = true := hc.resolve_left (not_not_intro (s.wakeInterrupt_iff.mp hw))
    rw [State.wakeUp, if_pos hw, if_pos ⟨he.1, he.2, hfree⟩]
  · rw [State.wakeUp, if_neg hw, if_pos he]

theorem State.wakeUp_none (hc : ¬WakeCause s) (he : ¬(k = .wfe ∧ s.eventPending = true)) : s.wakeUp k false = .sleep := by
  rw [State.wakeUp, if_neg (mt s.wakeInterrupt_iff.mp hc), if_neg he]
  rfl

end

/-- Settles O52. -/
theorem sleepAndWake : Obligations.SleepAndWake := by
  intro s k d wake rest henv hsleep hheld hdebug hhalt hexc s0 cause event
  obtain ⟨hasleep, hbyInterrupt, hgoesOn⟩ :=
    State.turn_asleep (s := s0) (b := ⟨[], d, wake⟩) hheld hdebug hhalt hexc hsleep
  have hat : s.atBoundary = s0.turn ⟨[], d, wake⟩ := State.atBoundary_env henv
  refine ⟨fun hc he hw => ?_, fun hc he hsel => ?_, fun hc he hstep n target hsel hready htarget => ?_, fun he hc hsel => ?_⟩
  · subst hw
    exact step_of_done (hat.trans (hasleep (State.wakeUp_none (s := s0) hc he)))
  · exact step_of_run ((hat.trans (hbyInterrupt (State.wakeUp_byInterrupt (s := s0) hc he))).trans
      (State.awakeTurn_none (s := { s0 with sleep := none }) hsel _))
  · have hready0 : TrapReady { s0 with sleep := none } n := hready.of_fields rfl rfl rfl rfl rfl
    obtain ⟨t, ht, htaken, -⟩ := hready0.takeInterrupt (target := target) htarget
    exact ⟨t, step_of_interrupt ((hat.trans (hbyInterrupt (State.wakeUp_byInterrupt (s := s0) hc he))).trans
      (State.awakeTurn_some (s := { s0 with sleep := none }) hsel hstep)) ht, htaken⟩
  · have hturn := hat.trans (hgoesOn (State.wakeUp_event (s := s0) he hc))
    obtain ⟨rfl, -⟩ := he
    exact step_of_run (hturn.trans (State.awakeTurn_none (s := { s0 with sleep := none, eventPending := false }) hsel _))

/-! ### The SysTick tick -/

theorem words_append (hi lo : Word) : fieldAt 64 hi 32 ||| fieldAt 64 lo 0 = hi ++ lo := by
  have h := BitVec.setWidth_append_eq_shiftLeft_setWidth_or (b := hi) (b' := lo) (w'' := 64)
  rw [BitVec.setWidth_eq] at h
  rw [h, fieldAt, fieldAt, BitVec.shiftLeft_zero]

theorem append_words (v : BitVec 64) : v.extractLsb' 32 32 ++ v.extractLsb' 0 32 = v :=
  BitVec.extractLsb'_append_extractLsb'

theorem append_words_inj (a b c d : Word) : a ++ b = c ++ d ↔ b = d ∧ a = c := by
  refine ⟨fun h => ⟨?_, ?_⟩, fun ⟨hb, ha⟩ => by rw [ha, hb]⟩
  · simpa only [BitVec.setWidth_append_eq_right] using congrArg (fun v : BitVec (32 + 32) => v.setWidth 32) h
  · simpa only [BitVec.extractLsb'_append_eq_left] using congrArg (fun v : BitVec (32 + 32) => v.extractLsb' 32 32) h

/-- The count after a tick of the 32-bit timer (61 R605). -/
def SysTick.nextCount (t : SysTick) : Word :=
  if t.mode then (if t.stre = true ∧ t.cnt = 0#32 then t.cmp else t.cnt - 1#32)
  else if t.stre = true ∧ t.cnt = t.cmp then 0#32 else t.cnt + 1#32

/-- The 32-bit timer after a tick: CNTIF rises where the count meets its end. -/
def SysTick.ticked (t : SysTick) : SysTick :=
  { t with cnt := t.nextCount, cntif := t.cntif || t.nextCount == (if t.mode then 0#32 else t.cmp) }

theorem State.tick_stopped {s : State} (h : s.stk.ste = false ∨ (s.debugMode = true ∧ s.dbg.dcsr.stoptime = true)) :
    s.tick = s := by
  rw [State.tick]
  exact if_pos (by obtain h | ⟨h1, h2⟩ := h <;> simp [*])

section
variable {s : State} (hrun : ¬(s.stk.ste = false ∨ (s.debugMode = true ∧ s.dbg.dcsr.stoptime = true)))
include hrun

theorem State.tick_v3bc (hv : s.isV3A = false) : s.tick = State.assertSources { s with stk := s.stk.ticked } := by
  have hgo : (!s.stk.ste || (s.debugMode && s.dbg.dcsr.stoptime)) = false := by
    simpa using hrun
  rw [State.tick, if_neg (by simp [hgo]), if_neg (by simp [hv])]
  cases hm : s.stk.mode <;> simp [SysTick.ticked, SysTick.nextCount, hm]

theorem State.tick_v3a (hv : s.isV3A = true) {next : BitVec 64} (hnext : next = (s.stk.cntHi ++ s.stk.cnt) + 1#64) :
    s.tick =
      if next = s.stk.cmpHi ++ s.stk.cmp then
        State.setPending { s with stk := { s.stk with cnt := next.extractLsb' 0 32, cntHi := next.extractLsb' 32 32 } }
          (irqBit 12#8)
      else { s with stk := { s.stk with cnt := next.extractLsb' 0 32, cntHi := next.extractLsb' 32 32 } } := by
  have hgo : (!s.stk.ste || (s.debugMode && s.dbg.dcsr.stoptime)) = false := by
    simpa using hrun
  have hmeet : next = s.stk.cmpHi ++ s.stk.cmp ↔ next.extractLsb' 0 32 = s.stk.cmp ∧ next.extractLsb' 32 32 = s.stk.cmpHi := by
    rw [← append_words_inj, append_words]
  rw [State.tick, if_neg (by simp [hgo]), if_pos hv, words_append, ← hnext]
  simp only [hmeet]

end

/-- The pending bits after a tick, where it happens: only number 12, or a source that asserts, is new. -/
theorem State.pending_tick_other {s : State} {n : IrqNum} (h12 : n ≠ 12#8) (h14 : n ≠ 14#8) :
    s.tick.pending n = s.pending n := by
  by_cases hrun : s.stk.ste = false ∨ (s.debugMode = true ∧ s.dbg.dcsr.stoptime = true)
  · rw [State.tick_stopped hrun]
  rw [Bool.eq_iff_iff]
  cases hv : s.isV3A with
  | true =>
    rw [State.tick_v3a hrun hv rfl]
    split
    case isTrue =>
      rw [State.pending_setPending, getLsbD_irqBit]
      exact or_iff_left fun h => h12 h.1
    case isFalse => exact Iff.rfl
  | false =>
    rw [State.tick_v3bc hrun hv, State.pending_assertSources]
    refine or_iff_left fun h => ?_
    obtain ⟨-, ⟨h, -⟩ | ⟨h, -⟩⟩ := h
    · exact h12 h
    · exact h14 h

theorem State.setPending_stk (s : State) (mask : BitVec 256) : (s.setPending mask).stk = s.stk := rfl

theorem State.assertSources_stk (s : State) : s.assertSources.stk = s.stk := by
  unfold State.assertSources
  split <;> rfl

/-- Settles O53. -/
theorem sysTickTick : Obligations.SysTickTick := by
  intro s hheld stopped t
  have hd : DeviceOnly s t := s.tick_device
  have hregs : t.regs = s.regs := by unfold DeviceOnly at hd; rw [hd]
  refine ⟨by simp [State.applyAct, hheld, t], State.tick_stopped, fun hrun hv => ?v3a, fun hrun hv => ?v3bc,
    fun n h12 h14 => State.pending_tick_other h12 h14, State.reg_congr hregs, State.byteAt_congr hd.mem_eq⟩
  case v3a =>
    generalize hnext : (s.stk.cntHi ++ s.stk.cnt) + 1#64 = next
    have ht : t = _ := State.tick_v3a hrun hv hnext.symm
    have hste : s.stk.ste = true := by
      rw [← Bool.not_eq_false]
      exact fun h => hrun (.inl h)
    have hstk : t.stk = { s.stk with cnt := next.extractLsb' 0 32, cntHi := next.extractLsb' 32 32 } := by
      rw [ht]
      split <;> rfl
    have hcount : t.stk.cntHi ++ t.stk.cnt = next := by
      rw [hstk]
      exact append_words next
    refine ⟨hcount, by rw [hstk], by rw [hstk], by rw [hstk]; exact hste, ?_⟩
    rw [hcount, ht]
    split
    case isTrue h =>
      rw [State.pending_setPending, getLsbD_irqBit]
      exact or_congr_right ⟨fun _ => h, fun _ => ⟨rfl, by decide⟩⟩
    case isFalse h => exact (or_iff_left h).symm
  case v3bc =>
    have ht : t = _ := State.tick_v3bc hrun hv
    have hstk : t.stk = s.stk.ticked := by
      rw [ht]
      exact State.assertSources_stk _
    refine ⟨by rw [hstk]; rfl, ?_, ?_⟩
    · rw [hstk]
      simp [SysTick.ticked]
    · rw [hstk, ht, State.pending_assertSources]
      refine or_congr_right ⟨fun h => ?_, fun h => ⟨hv, .inl ⟨rfl, h⟩⟩⟩
      obtain ⟨-, ⟨-, h⟩ | ⟨h, -⟩⟩ := h
      · exact h
      · exact absurd h (by decide)

end Sys2Proof.Machine
end

section
/-! PROOFS. The debug host: halt requests, resume, register commands (61 R622, R626, R631, R632). -/

namespace Sys2Proof.Machine
open Sys2Proof

/-! ### The halt request -/

section
variable {s : State}

/-- The write of `haltreq` alone. -/
theorem State.writeDmcontrol_haltreq (hheld : s.dm.ndmreset = false) :
    s.writeDmcontrol 0x80000001#32 = .ok (s.dmcontrolFields 0x80000001#32) := by
  simp [State.writeDmcontrol, hheld]

/-- The write of `resumereq` alone, to a halted core. -/
theorem State.writeDmcontrol_resumereq (hheld : s.dm.ndmreset = false) (hdebug : s.debugMode = true)
    (hidle : s.dm.running = false) (heven : s.dbg.dpc.getLsbD 0 = false) :
    s.writeDmcontrol 0x40000001#32 =
      .ok
        { s.dmcontrolFields 0x40000001#32 with
          pc := s.dbg.dpc
          priv := s.dbg.dcsr.prv
          debugMode := false
          dm := { (s.dmcontrolFields 0x40000001#32).dm with resumeack := true, running := false } } := by
  have hresume : (s.dmcontrolFields 0x40000001#32).resume = _ := if_neg (by rw [Bool.not_eq_true]; exact heven)
  rw [State.writeDmcontrol]
  simp only [hheld, hdebug, hidle, hresume]
  rfl

theorem State.applyAct_dmcontrol (v : Word) (hpresent : s.cfg.debuggerPresent = true) :
    s.applyAct (.dmiWrite 0x10#7 v) = s.writeDmcontrol v := by
  simp [State.applyAct, hpresent, State.dmiWrite]

theorem State.applyActs_haltreq (hpresent : s.cfg.debuggerPresent = true) (hheld : s.dm.ndmreset = false) :
    s.applyActs [.dmiWrite 0x10#7 0x80000001#32] = .ok (s.dmcontrolFields 0x80000001#32) := by
  rw [State.applyActs, State.applyAct_dmcontrol _ hpresent, State.writeDmcontrol_haltreq hheld]
  rfl

theorem State.turn_haltreq (b : Boundary) (hdebug : s.debugMode = false) (hawake : s.sleep = none ∨ s.pfic.sleepdeep = false) :
    (s.dmcontrolFields 0x80000001#32).turn b = .done (s.dmcontrolFields 0x80000001#32).obeyHalt := by
  have hdeep : (s.sleep.isSome && s.pfic.sleepdeep) = false := by
    obtain h | h := hawake <;> simp [h]
  simp [State.turn, State.obeysHalt, State.dmcontrolFields, hdebug, hdeep]

theorem State.atBoundary_acts {b : Boundary} {rest : List Boundary} {u : State} (henv : s.env = b :: rest)
    (h : State.applyActs { s with env := rest, draws := s.draws + 1 } b.acts = .ok u) : s.atBoundary = u.turn b := by
  have hb : s.boundary = b := by rw [State.boundary, henv]
  have hp : s.passBoundary = { s with env := rest, draws := s.draws + 1 } := by rw [State.passBoundary, henv]; rfl
  rw [State.atBoundary, hb, hp, h]

/-- The boundary at which the debug host asks for a halt. -/
theorem State.atBoundary_haltreq {d wake : Bool} {rest : List Boundary} (hpresent : s.cfg.debuggerPresent = true)
    (hheld : s.dm.ndmreset = false) (henv : s.env = ⟨[.dmiWrite 0x10#7 0x80000001#32], d, wake⟩ :: rest)
    (hdebug : s.debugMode = false) (hawake : s.sleep = none ∨ s.pfic.sleepdeep = false) :
    s.atBoundary =
      .done (State.obeyHalt (State.dmcontrolFields { s with env := rest, draws := s.draws + 1 } 0x80000001#32)) :=
  (State.atBoundary_acts henv
    (State.applyActs_haltreq (s := { s with env := rest, draws := s.draws + 1 }) hpresent hheld)).trans
    (State.turn_haltreq (s := { s with env := rest, draws := s.draws + 1 }) _ hdebug hawake)

theorem State.ebreakNext_iff {f : Fetched} {i : Instr} {u : State} (hf : s.fetch = .ok (f, u)) (hd : decode s.cfg f = .instr i) :
    s.ebreakNext = true ↔ (i = .ebreak ∨ i = .cEbreak) ∧ s.ebreakHalts = true := by
  rw [State.ebreakNext, Bool.and_eq_true, and_comm]
  simp only [hf, hd]
  refine and_congr_left fun _ => ?_
  split
  case h_1 h =>
    obtain rfl : i = .ebreak := Decoded.instr.inj h
    simp
  case h_2 h =>
    obtain rfl : i = .cEbreak := Decoded.instr.inj h
    simp
  case h_3 h1 h2 =>
    refine ⟨fun h => absurd h Bool.false_ne_true, fun h => ?_⟩
    obtain rfl | rfl := h
    · exact absurd rfl h1
    · exact absurd rfl h2

end

/-! ### Register commands -/

/-- What the bits of a command say: a 32-bit transfer of general register `i`, with neither increment nor program buffer. -/
structure RegisterTransfer (v : Word) (i : Reg) (write : Bool) : Prop where
  kind : v.extractLsb' 24 8 = 0#8
  transfer : v.getLsbD 17 = true
  size : v.extractLsb' 20 3 = 2#3
  high : ¬(v.extractLsb' 0 16).toNat < 0x1000
  low : (v.extractLsb' 0 16).toNat < 0x1020
  number : (v.extractLsb' 0 16).extractLsb' 0 5 = i
  direction : v.getLsbD 16 = write
  noIncrement : v.getLsbD 19 = false
  noProgbuf : v.getLsbD 18 = false

theorem registerTransfer_read (i : Reg) : RegisterTransfer (0x00221000#32 ||| i.setWidth 32) i false := by
  constructor <;> revert i <;> decide

theorem registerTransfer_write (i : Reg) : RegisterTransfer (0x00231000#32 ||| i.setWidth 32) i true := by
  constructor <;> revert i <;> decide

section
variable {s : State} {i : Reg} {write : Bool}

theorem State.runCommand_register (hdebug : s.debugMode = true) (hok : s.dm.cmderr = 0#3)
    (h : RegisterTransfer s.dm.command i write) : s.runCommand = s.transferRegister := by
  have hsize : ¬2 < (s.dm.command.extractLsb' 20 3).toNat := by rw [h.size]; decide
  rw [State.runCommand, if_neg (not_not_intro hok), if_pos h.kind, if_pos hdebug, State.registerCommand, if_pos h.transfer,
    if_neg hsize]

theorem State.transferRegister_read (h : RegisterTransfer s.dm.command i false) :
    s.transferRegister = .ok { s with dm := { s.dm with data0 := s.reg i } } := by
  simp only [State.transferRegister, h.direction, h.high, h.low, h.number, State.sizedDraw, State.sizedWord, h.size,
    State.regnoUp, h.noIncrement, State.postExec, h.noProgbuf, if_true, if_false, Bool.false_eq_true]

theorem State.transferRegister_write (h : RegisterTransfer s.dm.command i true) :
    s.transferRegister = .ok (s.setReg i s.dm.data0) := by
  simp only [State.transferRegister, h.direction, h.high, h.low, h.number, State.sizedDraw, State.sizedWord, h.size,
    State.regnoUp, State.setReg_dm, h.noIncrement, State.postExec, h.noProgbuf, if_true, if_false, Bool.false_eq_true]

/-- A write of `command` to a halted, idle module runs the command. -/
theorem State.applyAct_command {v : Word} (hpresent : s.cfg.debuggerPresent = true) (hidle : s.dm.running = false)
    (hactive : s.dm.dmactive = true) (hok : s.dm.cmderr = 0#3) :
    s.applyAct (.dmiWrite 0x17#7 v) = State.runCommand { s with dm := { s.dm with command := v } } := by
  simp [State.applyAct, hpresent, State.dmiWrite, hactive, hidle, hok, show progbufIndex 0x17#7 = none from rfl]

end

/-- Settles O54. -/
theorem debugControl : Obligations.DebugControl := by
  intro s d wake rest i f next hpresent hheld asked halts
  refine ⟨fun henv hdebug => ?halt, fun hdebug hidle heven => ?resume, fun hdebug hidle hactive hok => ⟨?read, ?write⟩⟩
  case halt =>
    let s1 : State := State.dmcontrolFields { s with env := rest, draws := s.draws + 1 } 0x80000001#32
    have hstep : s.sleep = none ∨ s.pfic.sleepdeep = false → step s = s1.obeyHalt := fun h =>
      step_of_done (State.atBoundary_haltreq hpresent hheld henv hdebug h)
    have hhalts : ∀ (u : State) (cause : BitVec 3), s1.obeyHalt = .next (u.enterDebug cause u.pc) →
        (s.sleep = none ∨ s.pfic.sleepdeep = false) → u = { s1 with draws := u.draws } → halts cause := by
      intro u cause hu hawake hsame
      refine ⟨_, (hstep hawake).trans hu, ?_⟩
      rw [hsame]
      exact ⟨rfl, rfl, rfl, rfl, rfl, rfl, rfl, rfl, fun j => rfl, fun a => rfl⟩
    have hasked : s1.ebreakHalts = asked := by
      simp [State.ebreakHalts, s1, State.dmcontrolFields, hpresent, asked]
    refine ⟨fun hsleep hdeep => ?_, fun hsleep ht => ?_, fun hsleep ht hf hd => ?_⟩
    · exact hhalts s1 3#3 (if_pos hsleep) (.inr hdeep) rfl
    · have hns : ¬s1.sleep.isSome = true := by simp [s1, State.dmcontrolFields, hsleep]
      obtain hfire | ⟨hpass, hno⟩ := ht
      · have hfire1 : s1.triggered .fetch s1.pc = .fire := hfire
        exact hhalts s1 3#3 (by rw [State.obeyHalt, if_neg hns, hfire1]) (.inl hsleep) rfl
      · have hpass1 : s1.triggered .fetch s1.pc = .pass := hpass
        have hnot : s1.ebreakNext = false := by rw [State.ebreakNext, hasked, hno, Bool.false_and]
        exact hhalts { s1 with draws := s1.draws + 2 } 3#3 (by rw [State.obeyHalt, if_neg hns, hpass1, hnot]; rfl)
          (.inl hsleep) rfl
    · have hns : ¬s1.sleep.isSome = true := by simp [s1, State.dmcontrolFields, hsleep]
      have hpass1 : s1.triggered .fetch s1.pc = .pass := ht
      have hf1 : FetchReady s1 f := by
        cases f with
        | half p => exact ⟨hf.1, hf.2.1, hf.2.2, hf.2.3, hf.2.4, hf.2.5, hf.2.6⟩
        | full w =>
          obtain ⟨hlow, hp, hq⟩ := hf
          exact ⟨hlow, ⟨hp.1, hp.2, hp.3, hp.4, hp.5, hp.6⟩, ⟨hq.1, hq.2, hq.3, hq.4, hq.5, hq.6⟩⟩
      have hnext := State.ebreakNext_iff hf1.fetch hd
      rw [hasked] at hnext
      refine hhalts { s1 with draws := s1.draws + 2 } _ ?_ (.inl hsleep) rfl
      rw [State.obeyHalt, if_neg hns, hpass1]
      simp only [hnext]
  case resume =>
    exact ⟨_, (State.applyAct_dmcontrol _ hpresent).trans (State.writeDmcontrol_resumereq hheld hdebug hidle heven), rfl, rfl,
      rfl, rfl, rfl, rfl, fun a => rfl⟩
  case read =>
    let s1 : State := { s with dm := { s.dm with command := 0x00221000#32 ||| i.setWidth 32 } }
    have hcommand : RegisterTransfer s1.dm.command i false := registerTransfer_read i
    exact ⟨_, (State.applyAct_command hpresent hidle hactive hok).trans
      ((State.runCommand_register (s := s1) hdebug hok hcommand).trans (State.transferRegister_read hcommand)), rfl, hok, rfl, rfl⟩
  case write =>
    let s1 : State := { s with dm := { s.dm with command := 0x00231000#32 ||| i.setWidth 32 } }
    have hcommand : RegisterTransfer s1.dm.command i true := registerTransfer_write i
    refine ⟨_, (State.applyAct_command hpresent hidle hactive hok).trans
      ((State.runCommand_register (s := s1) hdebug hok hcommand).trans (State.transferRegister_write hcommand)), ?_, ?_, ?_, ?_⟩
    · exact State.reg_setReg_self _ i _
    · exact fun j hj => State.reg_setReg_other _ i j _ hj
    · exact (congrArg DebugModule.data0 (State.setReg_dm s1 i s1.dm.data0) : _ = s1.dm.data0)
    · exact State.setReg_pc ..

end Sys2Proof.Machine
end

section
/-! PROOFS. How loads, stores and atomics stop: misaligned, denied, nothing there, on a device (20 R104 to R108, 43 R315,
70 R677); the access split into bytes (20 R104 step 1). -/

namespace Sys2Proof.Machine
open Sys2Proof

/-! ### What an instruction is, from the addresses it reaches -/

section
variable {s : State} {i : Instr} {a : Word} {w : Width}

theorem isLoad_of_loadsFrom (hr : loadsFrom s i = some (a, w)) (hf : i.feature ≠ .a) :
    ∃ rd b off ext n, IsLoad i rd b off w ext n ∧ a = s.reg b + off := by
  cases opKind i with
  | load rd b off w' ext n h =>
    rw [h.reads s] at hr
    cases hr
    exact ⟨rd, b, off, ext, n, h, rfl⟩
  | store src b off w' n h =>
    rw [h.reads s] at hr
    cases hr
  | lr rd rs1 aq rl h => exact absurd (h ▸ rfl) hf
  | sc rd rs2 rs1 aq rl h => exact absurd (h ▸ rfl) hf
  | amo rd b f h => exact absurd h.feature hf
  | plain reads stores h =>
    rw [reads s] at hr
    cases hr

theorem isStore_of_storesTo (hs : storesTo s i = some (a, w)) (hf : i.feature ≠ .a) :
    ∃ src b off n, IsStore i src b off w n ∧ a = s.reg b + off := by
  cases opKind i with
  | load rd b off w' ext n h =>
    rw [h.stores s] at hs
    cases hs
  | store src b off w' n h =>
    rw [h.stores s] at hs
    cases hs
    exact ⟨src, b, off, n, h, rfl⟩
  | lr rd rs1 aq rl h => exact absurd (h ▸ rfl) hf
  | sc rd rs2 rs1 aq rl h => exact absurd (h ▸ rfl) hf
  | amo rd b f h => exact absurd h.feature hf
  | plain reads stores h =>
    rw [stores s] at hs
    cases hs

theorem isLr_of_loadsFrom (hr : loadsFrom s i = some (a, w)) (hf : i.feature = .a) :
    w = .word ∧ ∃ rd, exec i s = s.loadReserved rd a := by
  cases opKind i with
  | load rd b off w' ext n h => exact absurd hf h.feature
  | store src b off w' n h => exact absurd hf h.feature
  | lr rd rs1 aq rl h =>
    subst h
    cases hr
    exact ⟨rfl, rd, exec_lrW ..⟩
  | sc rd rs2 rs1 aq rl h =>
    subst h
    cases hr
  | amo rd b f h =>
    rw [h.reads s] at hr
    cases hr
  | plain reads stores h =>
    rw [reads s] at hr
    cases hr

theorem isAtomicStore_of_storesTo (hs : storesTo s i = some (a, w)) (hf : i.feature = .a) :
    w = .word ∧
      ((∃ rd v, exec i s = s.storeConditional rd a v ∧ ∃ rd rs2 rs1 aq rl, i = .scW rd rs2 rs1 aq rl) ∨
        ∃ rd f, exec i s = s.amo rd a f) := by
  cases opKind i with
  | load rd b off w' ext n h => exact absurd hf h.feature
  | store src b off w' n h => exact absurd hf h.feature
  | lr rd rs1 aq rl h =>
    subst h
    cases hs
  | sc rd rs2 rs1 aq rl h =>
    subst h
    cases hs
    exact ⟨rfl, .inl ⟨rd, s.reg rs2, exec_scW .., rd, rs2, rs1, aq, rl, rfl⟩⟩
  | amo rd b f h =>
    rw [h.stores s] at hs
    cases hs
    exact ⟨rfl, .inr ⟨rd, f s, h.exec_eq s⟩⟩
  | plain reads stores h =>
    rw [stores s] at hs
    cases hs

end

/-! ### An access that stops -/

section
variable {s : State} {rd : Reg} {a v n : Word} {w : Width} {ext : Word → Word}

theorem State.loadTo_stop {e : Stop} (ht : s.triggered .load a = .pass) (h : s.load a w = .error e) :
    s.loadTo rd a w ext n = s.loadStop rd e := by
  simp [State.loadTo, ht, h]

theorem State.storeFrom_stop {e : Stop} (ht : s.triggered .store a = .pass) (h : s.store a w v = .error e) :
    s.storeFrom a w v n = s.stop e := by
  simp [State.storeFrom, ht, h]

theorem State.load_aligned (h : w.aligned a = true) : s.load a w = s.loadAligned a w := if_pos h

theorem State.store_aligned (h : w.aligned a = true) : s.store a w v = s.storeAligned a w v := if_pos h

theorem State.load_misaligned_refuse (h : w.aligned a = false) (hp : s.cfg.misaligned = .refuse) :
    s.load a w = .error (.refused (.misalignedAccess a)) := by simp [State.load, h, hp]

theorem State.load_misaligned_trap (h : w.aligned a = false) (hp : s.cfg.misaligned = .trap) :
    s.load a w = .error (.exn .loadMisaligned a) := by simp [State.load, h, hp]

theorem State.store_misaligned_refuse (h : w.aligned a = false) (hp : s.cfg.misaligned = .refuse) :
    s.store a w v = .error (.refused (.misalignedAccess a)) := by simp [State.store, h, hp]

theorem State.store_misaligned_trap (h : w.aligned a = false) (hp : s.cfg.misaligned = .trap) :
    s.store a w v = .error (.exn .storeMisaligned a) := by simp [State.store, h, hp]

end

/-- Settles O25. -/
theorem misalignedPolicy : Obligations.MisalignedPolicy := by
  intro s i a w hmis hf
  refine ⟨fun hr ht => ?load, fun hs ht => ?store⟩
  case load =>
    obtain ⟨rd, b, off, ext, n, hi, rfl⟩ := isLoad_of_loadsFrom hr hf
    refine ⟨fun hp => ?_, fun hp target hready => ?_⟩
    · rw [hi.exec_eq, State.loadTo_stop ht (State.load_misaligned_refuse hmis hp)]
      rfl
    · rw [hi.exec_eq, State.loadTo_stop ht (State.load_misaligned_trap hmis hp)]
      exact hready.raise_taken (e := .loadMisaligned) (by decide) _
  case store =>
    obtain ⟨src, b, off, n, hi, rfl⟩ := isStore_of_storesTo hs hf
    refine ⟨fun hp => ?_, fun hp target hready => ?_⟩
    · rw [hi.exec_eq, State.storeFrom_stop ht (State.store_misaligned_refuse hmis hp)]
      rfl
    · rw [hi.exec_eq, State.storeFrom_stop ht (State.store_misaligned_trap hmis hp)]
      exact hready.raise_taken (e := .storeMisaligned) (by decide) _

theorem State.pmpOk_v3a {s : State} (hv : s.isV3A = true) (k : AccessKind) (ys : List Word) : s.pmpOk k ys = true := by
  have hc : s.cfg.variant.isV3A = true := hv
  simp [State.pmpOk, hc]

/-- Settles O35. -/
theorem atomicStops : Obligations.AtomicStops := by
  intro s i a target hf
  refine ⟨fun hmis => ⟨fun hr hready => ?_, fun hs hready => ?_⟩, fun hal hv hdev hread => ?_⟩
  · obtain ⟨-, rd, he⟩ := isLr_of_loadsFrom hr hf
    rw [he, State.loadReserved, if_pos (by rw [hmis]; rfl)]
    exact hready.raise_taken (e := .loadMisaligned) (by decide) a
  · obtain ⟨-, ⟨rd, v, he, -⟩ | ⟨rd, f, he⟩⟩ := isAtomicStore_of_storesTo hs hf
    · rw [he, State.storeConditional, if_pos (by rw [hmis]; rfl)]
      exact hready.raise_taken (e := .storeMisaligned) (by decide) a
    · rw [he, State.amo, if_pos (by rw [hmis]; rfl)]
      exact hready.raise_taken (e := .storeMisaligned) (by decide) a
  · obtain hr | hs := hread
    · obtain ⟨-, rd, he⟩ := isLr_of_loadsFrom hr hf
      simp [he, State.loadReserved, hal, State.pmpOk_v3a hv, hdev]
    · obtain ⟨-, ⟨rd, v, he, -⟩ | ⟨rd, f, he⟩⟩ := isAtomicStore_of_storesTo hs hf
      · simp [he, State.storeConditional, hal, State.pmpOk_v3a hv, hdev]
      · simp [he, State.amo, hal, State.pmpOk_v3a hv, hdev]

/-! ### The bytes of a split access -/

section
variable {s : State} {a : Word} {w : Width}

theorem State.loadAligned_readable {bs : List Byte} (hp : s.pmpOk .load (w.addrs a) = true)
    (hm : s.target (w.addrs a) = .ram ∨ s.target (w.addrs a) = .rom) (hb : BytesAre s (w.addrs a) bs) :
    s.loadAligned a w = .ok (assemble bs, s) := by
  have hb' : s.bytesAt (w.addrs a) = .ok bs := hb
  obtain hm | hm := hm <;> simp [State.loadAligned, hp, hm, hb']

theorem State.storeAligned_ram (v : Word) (hp : s.pmpOk .store (w.addrs a) = true) (hm : s.target (w.addrs a) = .ram) :
    s.storeAligned a w v = .ok ((s.storeClears a).setBytes (w.addrs a) (w.bytes v)) := by
  simp [State.storeAligned, hp, hm]

theorem State.loadAligned_byte {b : Byte} (hp : s.pmpOk .load [a] = true) (hm : s.target [a] = .ram ∨ s.target [a] = .rom)
    (hb : s.byteAt a = some b) : s.loadAligned a .byte = .ok (b.setWidth 32, s) := by
  have hbytes : BytesAre s (Width.byte.addrs a) [b] := by simp [BytesAre, Width.addrs, State.bytesAt, hb]
  rw [State.loadAligned_readable (w := .byte) hp hm hbytes, assemble_byte]

theorem State.storeAligned_byte (b : Byte) (hp : s.pmpOk .store [a] = true) (hm : s.target [a] = .ram) :
    s.storeAligned a .byte (b.setWidth 32) = .ok ((s.storeClears a).setBytes [a] [b]) := by
  rw [State.storeAligned_ram (w := .byte) _ hp hm]
  simp only [Width.addrs, Width.bytes, extract_setWidth b (by decide)]

theorem State.bytesAt_cons {as : List Word} {bs : List Byte} (h : s.bytesAt (a :: as) = .ok bs) :
    ∃ b bs', bs = b :: bs' ∧ s.byteAt a = some b ∧ s.bytesAt as = .ok bs' := by
  rw [State.bytesAt] at h
  cases hb : s.byteAt a with
  | none =>
    rw [hb] at h
    cases h
  | some b =>
    cases hbs : s.bytesAt as with
    | error e =>
      rw [hb, hbs] at h
      cases h
    | ok bs' =>
      rw [hb, hbs] at h
      cases h
      exact ⟨b, bs', rfl, rfl, rfl⟩

theorem State.loadBytes_readable {as : List Word} {bs : List Byte}
    (h : ∀ b ∈ as, (s.target [b] = .ram ∨ s.target [b] = .rom) ∧ s.pmpOk .load [b] = true) (hb : s.bytesAt as = .ok bs) :
    s.loadBytes as = .ok (bs, s) := by
  induction as generalizing bs with
  | nil => cases hb; rfl
  | cons a as ih =>
    obtain ⟨b, bs', rfl, hbyte, hrest⟩ := State.bytesAt_cons hb
    obtain ⟨hm, hp⟩ := h a List.mem_cons_self
    have htail := ih (fun c hc => h c (List.mem_cons_of_mem a hc)) hrest
    simp only [State.loadBytes, State.loadAligned_byte hp hm hbyte, htail, extract_setWidth b (by decide)]

theorem State.load_split {bs : List Byte} (h : SplitReady s .load a w) (hb : BytesAre s (w.addrs a) bs) :
    s.load a w = .ok (assemble bs, s) := by
  have hload : s.loadBytes (w.addrs a) = .ok (bs, s) :=
    State.loadBytes_readable (fun b hmem => ⟨(h.bytes b hmem).1.imp_right And.right, (h.bytes b hmem).2⟩) hb
  simp [State.load, h.misaligned, h.policy, hload]

theorem SplitReady.writes {bs : List Byte} {i : Instr} {rd : Reg} {v n : Word} {ext : Word → Word} (h : SplitReady s .load a w)
    (hb : BytesAre s (w.addrs a) bs) (he : exec i s = s.loadTo rd a w ext n) (hv : ext (assemble bs) = v) :
    Writes i s rd v (s.pc + n) := by
  refine writes_of_writeBack (he.trans ?_)
  simp [State.loadTo, h.quiet, State.load_split h hb, hv]

end

/-! ### A store byte by byte -/

/-- The state after the bytes of a split store: they stand at their addresses, every other byte is as before, and nothing else
changes but what a store may change. -/
structure BytesStored (s t : State) (as : List Word) (bs : List Byte) : Prop where
  stored : ∀ k (h : k < as.length) (h' : k < bs.length), t.byteAt as[k] = some bs[k]
  others : ∀ c, c ∉ as → t.byteAt c = s.byteAt c
  only : t = { s with mem := t.mem, stale := t.stale, unseen := t.unseen, reservation := t.reservation, draws := t.draws }
  reservation : t.reservation = s.reservation ∨
    (t.reservation = none ∧ ∃ g, s.reservation = some g ∧ ∃ b ∈ as, s.sameGranule g b = true)

theorem State.storeClears_reservation (s : State) (a : Word) : ReservationMay s (s.storeClears a) a := by
  unfold State.storeClears
  split
  case h_1 => exact .inl rfl
  case h_2 r hr =>
    by_cases hg : s.sameGranule r a = true
    · rw [if_pos hg]
      by_cases hf : Config.freeBool s.draws = true
      · exact .inr ⟨if_pos hf, r, hr, hg⟩
      · exact .inl ((if_neg hf).trans hr.symm)
    · rw [if_neg hg]
      exact .inl rfl

theorem State.byteStored (s : State) (a : Word) (b : Byte) :
    BytesStored s ((s.storeClears a).setBytes [a] [b]) [a] [b] where
  stored k h _ := by
    obtain rfl : k = 0 := by simpa using h
    simp [State.byteAt, State.setBytes, Memory.setAll, Memory.get_set]
  others c hc := (State.byteAt_setBytes_other _ _ _ c hc).trans (State.byteAt_congr (s.storeClears_mem a) c)
  only := by rw [State.storeClears_eq]; rfl
  reservation := by
    obtain h | ⟨h, g, hg, hsame⟩ := s.storeClears_reservation a
    · exact .inl h
    · exact .inr ⟨h, g, hg, a, by simp, hsame⟩

theorem State.storeBytes_ram {as : List Word} {bs : List Byte} {s : State} (hlen : as.length = bs.length) (hnd : as.Nodup)
    (h : ∀ b ∈ as, s.target [b] = .ram ∧ s.pmpOk .store [b] = true) : ∃ t, s.storeBytes as bs = .ok t ∧ BytesStored s t as bs := by
  induction as generalizing s bs with
  | nil =>
    obtain rfl : bs = [] := List.eq_nil_of_length_eq_zero hlen.symm
    exact ⟨s, rfl, fun k h => absurd h (Nat.not_lt_zero k), fun c _ => rfl, rfl, .inl rfl⟩
  | cons a as ih =>
    obtain ⟨b, bs, rfl⟩ := List.exists_cons_of_length_eq_add_one hlen.symm
    obtain ⟨hnotin, hnd⟩ := List.nodup_cons.mp hnd
    obtain ⟨hm, hp⟩ := h a List.mem_cons_self
    have hone := s.byteStored a b
    generalize hs1 : (s.storeClears a).setBytes [a] [b] = s1 at hone
    have hready : ∀ c ∈ as, s1.target [c] = .ram ∧ s1.pmpOk .store [c] = true := fun c hc => by
      rw [hone.only]
      exact h c (List.mem_cons_of_mem a hc)
    obtain ⟨t, ht, hrest⟩ := ih (by simpa using hlen) hnd hready
    have hgran : ∀ g c, s1.sameGranule g c = s.sameGranule g c := fun g c => by rw [hone.only]; rfl
    refine ⟨t, ?_, ?_, fun c hc => ?_, ?_, ?_⟩
    · rw [State.storeBytes, State.storeAligned_byte b hp hm, hs1]
      exact ht
    · intro k hk hk'
      cases k with
      | zero => exact (hrest.others a hnotin).trans (hone.stored 0 (by simp) (by simp))
      | succ k => exact hrest.stored k (by simpa using hk) (by simpa using hk')
    · obtain ⟨hca, hcas⟩ := not_or.mp (mt List.mem_cons.mpr hc)
      exact (hrest.others c hcas).trans (hone.others c (by simpa using hca))
    · rw [hrest.only, hone.only]
    · obtain hr | ⟨hr, g, hg, c, hc, hsame⟩ := hrest.reservation
      · obtain hr' | ⟨hr', g, hg, c, hc, hsame⟩ := hone.reservation
        · exact .inl (hr.trans hr')
        · exact .inr ⟨hr.trans hr', g, hg, c, by simp at hc; simp [hc], hsame⟩
      · rw [hgran] at hsame
        obtain hr' | ⟨hr', -⟩ := hone.reservation
        · exact .inr ⟨hr, g, hr'.symm.trans hg, c, List.mem_cons_of_mem a hc, hsame⟩
        · rw [hr'] at hg
          cases hg

/-- A split store that completes, in the terms of the obligation. -/
theorem SplitReady.stores {s : State} {a : Word} {w : Width} {i : Instr} {v n : Word} (h : SplitReady s .store a w)
    (he : exec i s = s.storeFrom a w v n) :
    ∃ t, exec i s = .next t ∧ StoredAt s t a w v ∧ (∀ j, t.reg j = s.reg j) ∧ t.pc = s.pc + n ∧ SameButStore s t ∧
      (t.reservation = s.reservation ∨
        (t.reservation = none ∧ ∃ g, s.reservation = some g ∧ ∃ b ∈ w.addrs a, s.sameGranule g b = true)) := by
  have hready : ∀ b ∈ w.addrs a, s.target [b] = .ram ∧ s.pmpOk .store [b] = true := fun b hb =>
    ⟨(h.bytes b hb).1.resolve_right fun hk => AccessKind.noConfusion hk.1, (h.bytes b hb).2⟩
  obtain ⟨u, hu, hstored⟩ := State.storeBytes_ram (w.addrs_length a v) (w.addrs_nodup a) hready
  have hstore : s.store a w v = .ok u := by simp [State.store, h.misaligned, h.policy, hu]
  have hregs : u.regs = s.regs := by rw [hstored.only]
  have hpc : u.pc = s.pc := by rw [hstored.only]
  refine ⟨u.advance n, ?_, ⟨?_, hstored.others⟩, State.reg_congr hregs, congrArg (· + n) hpc, ?_, hstored.reservation⟩
  · simp [he, State.storeFrom, h.quiet, hstore]
  · exact State.bytesAt_of (w.addrs_length a v) fun k hk => hstored.stored k hk (w.addrs_length a v ▸ hk)
  · unfold SameButStore
    rw [State.advance, hstored.only]

/-- Settles O26. -/
theorem splitAccess : Obligations.SplitAccess := by
  intro s rd rs1 rs2 q r imm o7 o8 off b0 b1 b2 b3
  simp only [← creg_eq]
  refine ⟨?lh, ?lhu, ?cLhu, ?cLhusp, ?lw, ?cLw, ?cLwsp, ?sh, ?cSh, ?cShsp, ?sw, ?cSw, ?cSwsp⟩
  case lh => exact fun h hb => h.writes hb (exec_lh ..) (sext16_assemble b0 b1)
  case lhu => exact fun h hb => h.writes hb (exec_lhu ..) (zext16_assemble b0 b1)
  case cLhu => exact fun h hb => h.writes hb (exec_cLhu ..) (zext16_assemble b0 b1)
  case cLhusp => exact fun h hb => h.writes hb (exec_cLhusp ..) (zext16_assemble b0 b1)
  case lw => exact fun h hb => h.writes hb (exec_lw ..) (assemble_word b0 b1 b2 b3)
  case cLw => exact fun h hb => h.writes hb (exec_cLw ..) (assemble_word b0 b1 b2 b3)
  case cLwsp => exact fun h hb => h.writes hb (exec_cLwsp ..) (assemble_word b0 b1 b2 b3)
  case sh => exact fun h => h.stores (exec_sh ..)
  case cSh => exact fun h => h.stores (exec_cSh ..)
  case cShsp => exact fun h => h.stores (exec_cShsp ..)
  case sw => exact fun h => h.stores (exec_sw ..)
  case cSw => exact fun h => h.stores (exec_cSw ..)
  case cSwsp => exact fun h => h.stores (exec_cSwsp ..)

end Sys2Proof.Machine
end

section
/-! PROOFS. Accesses that PMP denies or that nothing answers (20 R104 to R107, R120, R136): faults of the run for data, a trap
for fetch, the end of a program buffer in debug mode. -/

namespace Sys2Proof.Machine
open Sys2Proof

/-- PMP denies the access, or nothing answers at its addresses. -/
def Denied (s : State) (k : AccessKind) (bs : List Word) : Prop := s.pmpOk k bs = false ∨ s.target bs = .nothing

/-- No store can land at these addresses. -/
def NoStore (s : State) (bs : List Word) : Prop := Denied s .store bs ∨ s.target bs = .rom

/-! ### Data accesses -/

section
variable {s : State} {a v : Word} {w : Width}

theorem State.loadAligned_denied (h : Denied s .load (w.addrs a)) : s.loadAligned a w = .error (.exn .loadAccess a) := by
  cases hp : s.pmpOk .load (w.addrs a) with
  | false => simp [State.loadAligned, hp]
  | true =>
    have hnone : s.target (w.addrs a) = .nothing := h.resolve_left (by simp [hp])
    simp [State.loadAligned, hp, hnone]

theorem State.storeAligned_denied (h : NoStore s (w.addrs a)) : s.storeAligned a w v = .error (.exn .storeAccess a) := by
  cases hp : s.pmpOk .store (w.addrs a) with
  | false => simp [State.storeAligned, hp]
  | true =>
    obtain (hno | hnone) | hrom := h
    · rw [hp] at hno
      cases hno
    · simp [State.storeAligned, hp, hnone]
    · simp [State.storeAligned, hp, hrom]

theorem NoStore.not_device {bs : List Word} (h : NoStore s bs) :
    (s.pmpOk .store bs && s.target bs == .device) = false ∧ (s.pmpOk .store bs && s.target bs == .platform) = false := by
  obtain (h | h) | h := h <;> simp [h]

theorem Denied.not_device {k : AccessKind} {bs : List Word} (h : Denied s k bs) :
    (s.pmpOk k bs && s.target bs == .device) = false := by
  obtain h | h := h <;> simp [h]

/-- The bytes of a split load up to the first that is denied are read, and change nothing. -/
theorem State.loadBytes_denied {as : List Word} (hsome : ∃ b ∈ as, Denied s .load [b])
    (hall : ∀ b ∈ as, Denied s .load [b] ∨ ((s.target [b] = .ram ∨ s.target [b] = .rom) ∧ ∃ v, s.byteAt b = some v)) :
    ∃ b, s.loadBytes as = .error (.exn .loadAccess b) := by
  induction as with
  | nil =>
    obtain ⟨b, hb, -⟩ := hsome
    cases hb
  | cons a as ih =>
    by_cases ha : Denied s .load [a]
    · exact ⟨a, by rw [State.loadBytes, State.loadAligned_denied (w := .byte) ha]⟩
    · obtain ⟨b, hb, hdenied⟩ := hsome
      have hmem : b ∈ as := (List.mem_cons.mp hb).resolve_left fun h => ha (h ▸ hdenied)
      obtain ⟨c, hc⟩ := ih ⟨b, hmem, hdenied⟩ fun d hd => hall d (List.mem_cons_of_mem a hd)
      obtain ⟨hm, v, hv⟩ := (hall a List.mem_cons_self).resolve_left ha
      have hp : s.pmpOk .load [a] = true := by
        rw [← Bool.not_eq_false]
        exact fun h => ha (.inl h)
      exact ⟨c, by rw [State.loadBytes, State.loadAligned_byte hp hm hv]; simp only [hc]⟩

theorem State.storeBytes_denied {as : List Word} {bs : List Byte} {s : State} (hlen : as.length = bs.length)
    (hsome : ∃ b ∈ as, NoStore s [b]) (hall : ∀ b ∈ as, NoStore s [b] ∨ s.target [b] = .ram) :
    ∃ b, s.storeBytes as bs = .error (.exn .storeAccess b) := by
  induction as generalizing s bs with
  | nil =>
    obtain ⟨b, hb, -⟩ := hsome
    cases hb
  | cons a as ih =>
    obtain ⟨v, bs, rfl⟩ := List.exists_cons_of_length_eq_add_one hlen.symm
    by_cases ha : NoStore s [a]
    · exact ⟨a, by rw [State.storeBytes, State.storeAligned_denied (w := .byte) ha]⟩
    · obtain ⟨b, hb, hdenied⟩ := hsome
      have hmem : b ∈ as := (List.mem_cons.mp hb).resolve_left fun h => ha (h ▸ hdenied)
      have hm : s.target [a] = .ram := (hall a List.mem_cons_self).resolve_left ha
      have hp : s.pmpOk .store [a] = true := by
        rw [← Bool.not_eq_false]
        exact fun h => ha (.inl (.inl h))
      have hone := s.byteStored a v
      rw [State.storeBytes, State.storeAligned_byte v hp hm]
      dsimp only
      generalize (s.storeClears a).setBytes [a] [v] = s1 at hone ⊢
      have hsame : ∀ c, NoStore s1 [c] ↔ NoStore s [c] := fun c => by rw [hone.only]; exact Iff.rfl
      have htarget : ∀ c, s1.target [c] = s.target [c] := fun c => by rw [hone.only]; rfl
      exact ih (by simpa using hlen) ⟨b, hmem, (hsame b).mpr hdenied⟩ fun c hc =>
        (hall c (List.mem_cons_of_mem a hc)).imp (hsame c).mpr (htarget c).trans

theorem State.load_split_denied (hmis : w.aligned a = false) (hpol : s.cfg.misaligned = .split)
    (hsome : ∃ b ∈ w.addrs a, Denied s .load [b])
    (hall : ∀ b ∈ w.addrs a,
      Denied s .load [b] ∨ ((s.target [b] = .ram ∨ s.target [b] = .rom) ∧ ∃ v, s.byteAt b = some v)) :
    s.load a w = .error (.exn .loadAccess a) := by
  obtain ⟨b, hb⟩ := State.loadBytes_denied hsome hall
  simp [State.load, hmis, hpol, hb, Stop.inAccess]

theorem State.store_split_denied (hmis : w.aligned a = false) (hpol : s.cfg.misaligned = .split)
    (hsome : ∃ b ∈ w.addrs a, NoStore s [b]) (hall : ∀ b ∈ w.addrs a, NoStore s [b] ∨ s.target [b] = .ram) :
    s.store a w v = .error (.exn .storeAccess a) := by
  obtain ⟨b, hb⟩ := State.storeBytes_denied (w.addrs_length a v) hsome hall
  simp [State.store, hmis, hpol, hb, Stop.inAccess]

end

section
variable {s : State} {rd : Reg} {a info : Word}

@[simp] theorem State.faultingLoad_debugMode (s : State) (rd : Reg) : (s.faultingLoad rd).debugMode = s.debugMode := by
  unfold State.faultingLoad
  rw [State.setReg_debugMode]
  rfl

theorem State.raise_loadAccess (h : s.debugMode = false) (info : Word) : s.raise .loadAccess info = .fault (.loadAccess info) := by
  simp [State.raise, h]

theorem State.raise_storeAccess (h : s.debugMode = false) (info : Word) :
    s.raise .storeAccess info = .fault (.storeAccess info) := by
  simp [State.raise, h]

theorem State.raise_instrAccess_nmi (h : s.debugMode = false) (hv : s.isV3A = false) (hie : s.csr.corecfgr.nmiIe = true)
    (info : Word) : s.raise .instrAccess info = s.hardwareError info := by
  simp [State.raise, h, hv, hie]

theorem State.raise_instrAccess_exception (h : s.debugMode = false) (hie : s.isV3A = true ∨ s.csr.corecfgr.nmiIe = false)
    (info : Word) : s.raise .instrAccess info = s.trapEntry (Exc.instrAccess.req s.isV3A info s.pc) := by
  obtain hie | hie := hie <;> simp [State.raise, h, hie]

theorem State.loadStop_loadAccess (h : s.debugMode = false) : s.loadStop rd (.exn .loadAccess info) = .fault (.loadAccess info) :=
  State.raise_loadAccess ((s.faultingLoad_debugMode rd).trans h) info

theorem State.loadReserved_denied (hal : Width.word.aligned a = true) (h : Denied s .load (Width.word.addrs a)) :
    s.loadReserved rd a = s.loadStop rd (.exn .loadAccess a) := by
  rw [State.loadReserved, if_neg (by simp [hal]), if_neg (by simp only [h.not_device]; decide), State.loadAligned_denied h]

theorem State.amo_denied {f : Word → Word} (hdebug : s.debugMode = false) (hal : Width.word.aligned a = true)
    (h : NoStore s (Width.word.addrs a)) : s.amo rd a f = .fault (.storeAccess a) := by
  have hfault : (s.faultingLoad rd).raise .storeAccess a = .fault (.storeAccess a) :=
    State.raise_storeAccess ((s.faultingLoad_debugMode rd).trans hdebug) a
  rw [State.amo, if_neg (by simp [hal])]
  by_cases hp : (!s.pmpOk .load (Width.word.addrs a) || !s.pmpOk .store (Width.word.addrs a)) = true
  · rw [if_pos hp, hfault]
  · rw [if_neg hp]
    obtain (hno | hnone) | hrom := h
    · rw [hno] at hp
      simp at hp
    · simp only [hnone, hfault]
    · simp only [hrom, hfault]

/-- An `sc.w` with its reservation where no store can land faults, or fails. -/
theorem State.storeConditional_denied {v : Word} (hdebug : s.debugMode = false) (hal : Width.word.aligned a = true)
    (hres : s.reservation = some a) (h : NoStore s (Width.word.addrs a)) :
    s.storeConditional rd a v = .fault (.storeAccess a) ∨
      s.storeConditional rd a v = State.writeBack { s.drawn with reservation := none } rd 1#32 4#32 := by
  have hstore : State.storeAligned { s.drawn with reservation := none } a .word v = .error (.exn .storeAccess a) :=
    State.storeAligned_denied h
  have heq : s.storeConditional rd a v =
      if Config.freeBool s.draws then s.drawn.raise .storeAccess a
      else State.writeBack { s.drawn with reservation := none } rd 1#32 4#32 := by
    rw [State.storeConditional, if_neg (by simp [hal]), if_neg (by simp only [h.not_device.1]; decide),
      if_neg (by simp only [h.not_device.2]; decide), if_pos hres, hstore]
    rfl
  rw [heq]
  cases Config.freeBool s.draws with
  | true => exact .inl ((if_pos rfl).trans (State.raise_storeAccess (s := s.drawn) hdebug a))
  | false => exact .inr (if_neg Bool.false_ne_true)

/-- In debug mode a load of what nothing answers ends the program buffer. -/
theorem State.loadStop_debug (h : s.debugMode = true) :
    ∃ t, s.loadStop rd (.exn .loadAccess info) = .next t ∧
      t.dm = { s.dm with running := false, cmderr := if s.dm.cmderr = 0#3 then 3#3 else s.dm.cmderr } ∧
        SameRegsBut s t rd ∧ SameBytes s t ∧ t = { s with regs := t.regs, dm := t.dm, draws := t.draws } := by
  obtain ⟨t, ht, hregs, hrest⟩ := State.faultingLoad_raise h rd .loadAccess info
  refine ⟨t, ht, ?_, hregs, State.byteAt_congr (by rw [hrest]; rfl), ?_⟩
  · rw [hrest]
    rfl
  · rw [hrest]
    rfl

theorem State.triggered_debug (h : s.debugMode = true) (k : AccessKind) (v : Word) : s.triggered k v = .pass := by
  simp [State.triggered, h]

theorem IsLoad.ends_debug {i : Instr} {b : Reg} {off n : Word} {w : Width} {ext : Word → Word}
    (h : IsLoad i rd b off w ext n) (hdebug : s.debugMode = true) (hal : w.aligned (s.reg b + off) = true)
    (hnone : s.target (w.addrs (s.reg b + off)) = .nothing) :
    ∃ t, exec i s = .next t ∧
      t.dm = { s.dm with running := false, cmderr := if s.dm.cmderr = 0#3 then 3#3 else s.dm.cmderr } ∧
        SameRegsBut s t rd ∧ SameBytes s t ∧ t = { s with regs := t.regs, dm := t.dm, draws := t.draws } := by
  have hload : s.load (s.reg b + off) w = .error (.exn .loadAccess (s.reg b + off)) :=
    (State.load_aligned hal).trans (State.loadAligned_denied (.inr hnone))
  rw [h.exec_eq, State.loadTo_stop (State.triggered_debug hdebug _ _) hload]
  exact State.loadStop_debug hdebug

end

/-! ### Fetch -/

section
variable {s : State} {b : Word}

theorem State.fetchParcel_denied (hsettled : s.pmpRelied [b, b + 1#32] = false) (h : Denied s .fetch [b, b + 1#32]) :
    s.fetchParcel b = .error (.exn .instrAccess b) := by
  have hsettled' : s.pmpRelied (Width.half.addrs b) = false := hsettled
  cases hp : s.pmpOk .fetch (Width.half.addrs b) with
  | false => simp [State.fetchParcel, hsettled', hp]
  | true =>
    have hnone : s.target (Width.half.addrs b) = .nothing := h.resolve_left fun hno => by
      rw [show s.pmpOk .fetch [b, b + 1#32] = true from hp] at hno
      cases hno
    simp [State.fetchParcel, hsettled', hp, hnone]

theorem State.fetch_denied_first {e : Stop} (h : s.fetchParcel s.pc = .error e) : s.fetch = .error e := by
  simp [State.fetch, h]

theorem State.fetch_denied_second {p : Half} {e : Stop} (hlong : p.extractLsb' 0 2 = 3#2) (hp : ParcelReady s s.pc p)
    (h : s.fetchParcel (s.pc + 2#32) = .error e) : s.fetch = .error e := by
  simp [State.fetch, hp.fetchParcel, Half.isLong, hlong, h]

/-- The ways fetch can be denied: the first parcel, or the second of a 32-bit instruction. `b` is the parcel's address. -/
def FetchDenied (s : State) (b : Word) : Prop :=
  (b = s.pc ∧ s.pmpRelied [s.pc, s.pc + 1#32] = false ∧ Denied s .fetch [s.pc, s.pc + 1#32]) ∨
    (b = s.pc + 2#32 ∧ (∃ p : Half, p.extractLsb' 0 2 = 3#2 ∧ ParcelReady s s.pc p) ∧
      s.pmpRelied [s.pc + 2#32, s.pc + 2#32 + 1#32] = false ∧ Denied s .fetch [s.pc + 2#32, s.pc + 2#32 + 1#32])

theorem FetchDenied.fetch (h : FetchDenied s b) : s.fetch = .error (.exn .instrAccess b) := by
  obtain ⟨rfl, hsettled, hden⟩ | ⟨rfl, ⟨p, hlong, hp⟩, hsettled, hden⟩ := h
  · exact State.fetch_denied_first (State.fetchParcel_denied hsettled hden)
  · exact State.fetch_denied_second hlong hp (State.fetchParcel_denied hsettled hden)

theorem FetchDenied.drawn (h : FetchDenied s b) : FetchDenied s.drawn b :=
  h.imp id fun ⟨hb, ⟨p, hlong, hp⟩, hden⟩ => ⟨hb, ⟨p, hlong, hp.drawn⟩, hden⟩

/-- The step raises the instruction access fault with the parcel's address. -/
theorem FetchDenied.step_eq (h : FetchDenied s b) (hu : Undisturbed s) :
    step s = afterStep (s.drawn.pmpSettled.raise .instrAccess b) := by
  rw [hu.free.step_eq, State.runInstr_stop (s := s.drawn) hu.noTrigger h.drawn.fetch]
  rfl

theorem TrapTaken.of_drawn {t : State} {kind : Bool} {code : Word} {actidx : IrqNum} {info epc target : Word}
    (h : TrapTaken s.drawn t kind code actidx info epc target) : TrapTaken s t kind code actidx info epc target :=
  { cause := h.cause, epc := h.epc, value := h.value, mpie := h.mpie, mpp := h.mpp, mie := h.mie, priv := h.priv
    nest := h.nest, frame := h.frame, pc := h.pc, regs := h.regs, memory := h.memory, reservation := h.reservation
    exception := h.exception, rest := h.rest }

/-- The hardware error enters through number 2, as the exception or as the NMI (60 R509). -/
theorem State.hardwareError_taken {target : Word} (hready : TrapReady s 2#8) (htarget : TargetIs s 2#8 target) (info : Word) :
    ∃ t, s.hardwareError info = .next t ∧
      (TrapTaken s t false 1#32 3#8 info s.pc target ∨ TrapTaken s t true 2#32 2#8 0#32 s.pc target) := by
  have hdrawn : TrapReady s.drawn 2#8 := hready.of_fields rfl rfl rfl rfl rfl
  unfold State.hardwareError
  cases Config.freeBool s.draws with
  | true =>
    obtain ⟨t, ht, htaken, -⟩ :=
      State.trapEntry_taken (t := ⟨false, Exc.instrAccess.code, 2#8, 3#8, info, s.pc⟩) hdrawn (target := target) htarget
    exact ⟨t, ht, .inl htaken.of_drawn⟩
  | false =>
    obtain ⟨t, ht, htaken, -⟩ :=
      State.trapEntry_taken (t := ⟨true, 2#32, 2#8, 2#8, 0#32, s.pc⟩) hdrawn (target := target) htarget
    exact ⟨t, ht, .inr htaken.of_drawn⟩

/-- The access fault of a fetch, while NMI_IE is on. -/
theorem FetchDenied.step_nmi {target : Word} (h : FetchDenied s b) (hu : Undisturbed s) (hv : s.isV3A = false)
    (hie : s.csr.corecfgr.nmiIe = true) (hready : TrapReady s 2#8) (htarget : TargetIs s 2#8 target) :
    ∃ t, step s = afterStep (.next t) ∧
      (TrapTaken s.drawn.pmpSettled t false 1#32 3#8 b s.pc target ∨
        TrapTaken s.drawn.pmpSettled t true 2#32 2#8 0#32 s.pc target) := by
  have hready' : TrapReady s.drawn.pmpSettled 2#8 := hready.of_fields rfl rfl rfl rfl rfl
  obtain ⟨t, ht, htaken⟩ := State.hardwareError_taken hready' (target := target) htarget b
  have hraise := State.raise_instrAccess_nmi (s := s.drawn.pmpSettled) hu.notHalted hv hie b
  exact ⟨t, (h.step_eq hu).trans (congrArg afterStep (hraise.trans ht)), htaken⟩

/-- The access fault of a fetch as the precise exception. -/
theorem FetchDenied.step_exception {target : Word} (h : FetchDenied s b) (hu : Undisturbed s)
    (hie : s.isV3A = true ∨ s.csr.corecfgr.nmiIe = false) (hready : ExceptionReady s 1#32 target) :
    ∃ t, step s = afterStep (.next t) ∧ TrapTaken s.drawn.pmpSettled t false 1#32 3#8 b s.pc target := by
  obtain ⟨hready, htarget⟩ := hready
  rw [show (1#32 : Word) = Exc.instrAccess.code from rfl, ← Exc.vector_eq_vectorOf] at hready htarget
  have hready' : TrapReady s.drawn.pmpSettled (Exc.instrAccess.vector s.isV3A) := hready.of_fields rfl rfl rfl rfl rfl
  obtain ⟨t, ht, htaken, -⟩ :=
    State.trapEntry_taken (s := s.drawn.pmpSettled) (t := Exc.instrAccess.req s.isV3A b s.pc) hready' (target := target) htarget
  have hraise := State.raise_instrAccess_exception (s := s.drawn.pmpSettled) hu.notHalted hie b
  exact ⟨t, (h.step_eq hu).trans (congrArg afterStep (hraise.trans ht)), htaken⟩

end

/-- Settles O27. -/
theorem accessFaults : Obligations.AccessFaults := by
  intro s target denied noStore parcelDenied s0
  have hfirst : parcelDenied s.pc → FetchDenied s s.pc := fun h => .inl ⟨rfl, h⟩
  have hsecond : ∀ p : Half, p.extractLsb' 0 2 = 3#2 → ParcelReady s s.pc p → parcelDenied (s.pc + 2#32) →
      FetchDenied s (s.pc + 2#32) := fun p hlong hp h => .inr ⟨rfl, ⟨p, hlong, hp⟩, h⟩
  refine ⟨fun i a w hal hdebug => ⟨fun hr ht hden => ?load, fun hs hsc ht hno => ?store⟩,
    fun i a w hmis hf hpol hdebug => ⟨fun hr ht hsome hall => ?splitLoad, fun hs ht hsome hall => ?splitStore⟩,
    ?sc, fun rd rs1 q r imm o7 o8 off aq rl hdebug => ?debug,
    fun hu hv hie hready htarget => ?nmi, fun hu hie hready => ?precise⟩
  case load =>
    by_cases hf : i.feature = .a
    · obtain ⟨rfl, rd, he⟩ := isLr_of_loadsFrom hr hf
      rw [he, State.loadReserved_denied hal hden, State.loadStop_loadAccess hdebug]
    · obtain ⟨rd, b, off, ext, n, hi, rfl⟩ := isLoad_of_loadsFrom hr hf
      rw [hi.exec_eq, State.loadTo_stop ht ((State.load_aligned hal).trans (State.loadAligned_denied hden)),
        State.loadStop_loadAccess hdebug]
  case store =>
    by_cases hf : i.feature = .a
    · obtain ⟨rfl, ⟨rd, v, -, rd', rs2, rs1, aq, rl, rfl⟩ | ⟨rd, f, he⟩⟩ := isAtomicStore_of_storesTo hs hf
      · exact absurd rfl (hsc rd' rs2 rs1 aq rl)
      · rw [he, State.amo_denied hdebug hal hno]
    · obtain ⟨src, b, off, n, hi, rfl⟩ := isStore_of_storesTo hs hf
      rw [hi.exec_eq, State.storeFrom_stop ht ((State.store_aligned hal).trans (State.storeAligned_denied hno))]
      exact State.raise_storeAccess hdebug _
  case splitLoad =>
    obtain ⟨rd, b, off, ext, n, hi, rfl⟩ := isLoad_of_loadsFrom hr hf
    rw [hi.exec_eq, State.loadTo_stop ht (State.load_split_denied hmis hpol hsome hall), State.loadStop_loadAccess hdebug]
  case splitStore =>
    obtain ⟨src, b, off, n, hi, rfl⟩ := isStore_of_storesTo hs hf
    rw [hi.exec_eq, State.storeFrom_stop ht (State.store_split_denied hmis hpol hsome hall)]
    exact State.raise_storeAccess hdebug _
  case sc =>
    intro rd rs2 rs1 aq rl hdebug a hal hres hno
    have he : exec (.scW rd rs2 rs1 aq rl) s = s.storeConditional rd a (s.reg rs2) := exec_scW ..
    rw [he]
    refine (State.storeConditional_denied hdebug hal hres hno).imp_right fun h => ?_
    obtain ⟨t, ht, heff⟩ := State.writeBack_effect { s.drawn with reservation := none } rd 1#32 4#32
    refine ⟨t, h.trans ht, heff.result, heff.others, heff.pc, heff.memory, ?_⟩
    have hrest := heff.rest
    unfold SameButRegs at hrest
    rw [hrest]
    rfl
  case debug =>
    intro ends a axsp
    have hends : ∀ {i : Instr} {rd b : Reg} {off n : Word} {w : Width} {ext : Word → Word}, IsLoad i rd b off w ext n →
        ends i (s.reg b + off) w rd := fun hi hal hnone => hi.ends_debug hdebug hal hnone
    have hlr : ends (.lrW rd rs1 aq rl) (s.reg rs1) .word rd := fun hal hnone => by
      rw [show exec (.lrW rd rs1 aq rl) s = s.loadReserved rd (s.reg rs1) from exec_lrW ..,
        State.loadReserved_denied hal (.inr hnone)]
      exact State.loadStop_debug hdebug
    simp only [← creg_eq]
    have four : (4#32 : Word) = 2#32 ∨ (4#32 : Word) = 4#32 := .inr rfl
    have two : (2#32 : Word) = 2#32 ∨ (2#32 : Word) = 4#32 := .inl rfl
    exact
      ⟨hends ⟨fun _ => rfl, fun _ => rfl, fun _ => exec_lb .., Feature.noConfusion, four⟩,
        hends ⟨fun _ => rfl, fun _ => rfl, fun _ => exec_lbu .., Feature.noConfusion, four⟩,
        hends ⟨fun _ => rfl, fun _ => rfl, fun _ => exec_lh .., Feature.noConfusion, four⟩,
        hends ⟨fun _ => rfl, fun _ => rfl, fun _ => exec_lhu .., Feature.noConfusion, four⟩,
        hends ⟨fun _ => rfl, fun _ => rfl, fun _ => exec_lw .., Feature.noConfusion, four⟩, hlr,
        hends ⟨fun _ => rfl, fun _ => rfl, fun _ => exec_cLw .., Feature.noConfusion, two⟩,
        hends ⟨fun _ => rfl, fun _ => rfl, fun _ => exec_cLwsp .., Feature.noConfusion, two⟩,
        hends ⟨fun _ => rfl, fun _ => rfl, fun _ => exec_cLbu .., Feature.noConfusion, two⟩,
        hends ⟨fun _ => rfl, fun _ => rfl, fun _ => exec_cLhu .., Feature.noConfusion, two⟩,
        hends ⟨fun _ => rfl, fun _ => rfl, fun _ => exec_cLbusp .., Feature.noConfusion, two⟩,
        hends ⟨fun _ => rfl, fun _ => rfl, fun _ => exec_cLhusp .., Feature.noConfusion, two⟩⟩
  case nmi =>
    exact ⟨fun h => (hfirst h).step_nmi hu hv hie hready htarget,
      fun p hlong hp h => (hsecond p hlong hp h).step_nmi hu hv hie hready htarget⟩
  case precise =>
    exact ⟨fun h => (hfirst h).step_exception hu hie hready,
      fun p hlong hp h => (hsecond p hlong hp h).step_exception hu hie hready⟩

end Sys2Proof.Machine
end

section
/-! PROOFS. The atomics on memory: `lr.w`, `sc.w` and the nine AMOs (43 R313 to R326). -/

namespace Sys2Proof.Machine
open Sys2Proof

/-! ### The AMO format -/

theorem extractLsb'_funct7Of (w : Word) (lo len : Nat) (h : lo + len ≤ 7) :
    (funct7Of w).extractLsb' lo len = w.extractLsb' (25 + lo) len := by
  refine BitVec.eq_of_getLsbD_eq fun i hi => ?_
  have h7 : lo + i < 7 := by omega
  simp [funct7Of, hi, h7, Nat.add_assoc]

/-- A row of the AMO format fixes the opcode, `funct3` and the upper five bits of `funct7`; the ordering bits are operands. -/
theorem encodes_of_amo {s : State} {w pattern : Word} {mk : BitVec 1 → BitVec 1 → Instr} {holds : Instr → Prop}
    (hd : ∀ f7 : BitVec 7, f7.extractLsb' 2 5 = pattern.extractLsb' 27 5 →
      decodeFields f7 (rs2Of w) (rs1Of w) 2#3 (rdOf w) 0x2F#7 = some (mk (f7.extractLsb' 1 1) (f7.extractLsb' 0 1)))
    (hm : (mk (w.extractLsb' 26 1) (w.extractLsb' 25 1)).onMember s.cfg = true)
    (he : holds (mk (w.extractLsb' 26 1) (w.extractLsb' 25 1))) (hop : opcodeOf pattern = 0x2F#7 := by rfl)
    (hf3 : funct3Of pattern = 2#3 := by rfl) (hk : 0xFFFFFFFF#32 &&& 0xF800707F#32 ≠ pattern := by decide) :
    Encodes s w pattern 0xF800707F#32 (mk (w.extractLsb' 26 1) (w.extractLsb' 25 1)) holds := by
  refine encodes_of_row (fun h => ?_) hk hm he
  have hop' : opcodeOf w = 0x2F#7 := (extract_of_mask h 0 7 (by decide)).trans hop
  have hf3' : funct3Of w = 2#3 := (extract_of_mask h 12 3 (by decide)).trans hf3
  have hf5 : (funct7Of w).extractLsb' 2 5 = w.extractLsb' 27 5 := extractLsb'_funct7Of w 2 5 (by decide)
  have haq : (funct7Of w).extractLsb' 1 1 = w.extractLsb' 26 1 := extractLsb'_funct7Of w 1 1 (by decide)
  have hrl : (funct7Of w).extractLsb' 0 1 = w.extractLsb' 25 1 := extractLsb'_funct7Of w 0 1 (by decide)
  rw [decode32, hop', hf3', hd (funct7Of w) (hf5.trans (extract_of_mask h 27 5 (by decide))), haq, hrl]

theorem onMember_of_v3a {s : State} {i : Instr} (hv : s.isV3A = true) (hf : i.feature = .a) : i.onMember s.cfg = true := by
  rw [Instr.onMember, hf]
  exact hv

/-! ### `lr.w` and `sc.w` -/

section
variable {s : State} {rd : Reg} {a v : Word} {bs : List Byte}

theorem Loadable.loadReserved (h : Loadable s a .word bs) :
    s.loadReserved rd a = State.writeBack { s with reservation := some a } rd (assemble bs) 4#32 := by
  have hdev : (s.target (Width.word.addrs a) == .device) = false := by
    obtain hm | hm := h.memory <;> rw [hm] <;> rfl
  have hal : (!Width.word.aligned a) = false := by simp [h.aligned]
  simp [State.loadReserved, hal, hdev, State.loadAligned_readable h.allowed h.memory h.bytes]

theorem State.storeConditional_fails (hal : Width.word.aligned a = true) (hdev : s.target (Width.word.addrs a) ≠ .device)
    (hplat : s.target (Width.word.addrs a) ≠ .platform) (hres : s.reservation ≠ some a) :
    s.storeConditional rd a v = State.writeBack { s with reservation := none } rd 1#32 4#32 := by
  simp [State.storeConditional, hal, hdev, hplat, hres]

/-- With the reservation and a place to store, the store happens or it fails. -/
theorem Storable.storeConditional (h : Storable s a .word) (hres : s.reservation = some a) :
    s.storeConditional rd a v =
      if Config.freeBool s.draws then
        (State.setBytes { s.drawn with reservation := none } (Width.word.addrs a) (Width.word.bytes v)).writeBack rd 0#32 4#32
      else State.writeBack { s.drawn with reservation := none } rd 1#32 4#32 := by
  have hclears : State.storeClears { s.drawn with reservation := none } a = { s.drawn with reservation := none } := rfl
  have hstore := State.storeAligned_ram (s := { s.drawn with reservation := none }) (w := .word) v h.allowed h.memory
  rw [hclears] at hstore
  simp only [State.storeConditional, h.aligned, h.memory, hres, hstore]
  simp

end

/-- Settles O32. -/
theorem loadReserved : Obligations.LoadReserved := by
  intro s w b0 b1 b2 b3 hv
  refine encodes_of_row (fun h => ?_) (by decide) (onMember_of_v3a hv rfl) fun hload => ?_
  · have hop : opcodeOf w = 0x2F#7 := extract_of_mask h 0 7 (by decide)
    have hf3 : funct3Of w = 2#3 := extract_of_mask h 12 3 (by decide)
    have hrs2 : rs2Of w = 0#5 := extract_of_mask h 20 5 (by decide)
    have hf5 : (funct7Of w).extractLsb' 2 5 = 0x02#5 :=
      (extractLsb'_funct7Of w 2 5 (by decide)).trans (extract_of_mask h 27 5 (by decide))
    rw [decode32, hop, hf3, hrs2]
    simp [decodeFields, decodeAmo, hf5, extractLsb'_funct7Of w 1 1 (by decide), extractLsb'_funct7Of w 0 1 (by decide)]
  · obtain ⟨t, ht, heff⟩ :=
      State.writeBack_effect { s with reservation := some (s.reg (rs1Of w)) } (rdOf w) (assemble [b0, b1, b2, b3]) 4#32
    have he : exec (.lrW (rdOf w) (rs1Of w) (w.extractLsb' 26 1) (w.extractLsb' 25 1)) s = .next t :=
      (exec_lrW ..).trans (hload.loadReserved.trans ht)
    exact ⟨t, he, assemble_word b0 b1 b2 b3 ▸ heff.result, heff.others, heff.pc, heff.memory, heff.rest⟩

/-- Settles O33. -/
theorem storeConditional : Obligations.StoreConditional := by
  intro s w hv
  refine encodes_of_amo (mk := .scW (rdOf w) (rs2Of w) (rs1Of w)) (fun f7 h => ?_) (onMember_of_v3a hv rfl)
    ⟨fun hal hdev hplat hres => ?fails, fun hstore hres => ?may⟩
  · simp [decodeFields, decodeAmo, h]
  case fails =>
    obtain ⟨t, ht, heff⟩ := State.writeBack_effect { s with reservation := none } (rdOf w) 1#32 4#32
    exact ⟨t, (exec_scW ..).trans ((State.storeConditional_fails hal hdev hplat hres).trans ht), heff.result, heff.others,
      heff.pc, heff.memory, heff.rest⟩
  case may =>
    rw [show exec (.scW (rdOf w) (rs2Of w) (rs1Of w) (w.extractLsb' 26 1) (w.extractLsb' 25 1)) s =
      s.storeConditional (rdOf w) (s.reg (rs1Of w)) (s.reg (rs2Of w)) from exec_scW .., hstore.storeConditional hres]
    cases Config.freeBool s.draws with
    | true =>
      obtain ⟨t, ht, heff⟩ := State.writeBack_effect (State.setBytes { s.drawn with reservation := none }
        (Width.word.addrs (s.reg (rs1Of w))) (Width.word.bytes (s.reg (rs2Of w)))) (rdOf w) 0#32 4#32
      have hrest := heff.rest
      unfold SameButRegs at hrest
      refine ⟨t, (if_pos rfl).trans ht, heff.others, heff.pc, ?_, by rw [hrest]; rfl, .inl ⟨heff.result, ?_, fun b hb => ?_⟩⟩
      · unfold SameButStore
        rw [hrest]
        rfl
      · exact (State.bytesAt_congr _ heff.memory).trans (State.stored_bytes _ .word _ _)
      · exact (heff.memory b).trans (State.byteAt_setBytes_other _ _ _ b hb)
    | false =>
      obtain ⟨t, ht, heff⟩ := State.writeBack_effect { s.drawn with reservation := none } (rdOf w) 1#32 4#32
      have hrest := heff.rest
      unfold SameButRegs at hrest
      refine ⟨t, (if_neg Bool.false_ne_true).trans ht, heff.others, heff.pc, ?_, by rw [hrest], .inr ⟨heff.result, heff.memory⟩⟩
      unfold SameButStore
      rw [hrest]
      rfl

/-! ### The AMOs -/

theorem Storable.amo {s : State} {rd : Reg} {a : Word} {bs : List Byte} (f : Word → Word) (hl : Loadable s a .word bs)
    (hs : Storable s a .word) :
    s.amo rd a f =
      ((s.storeClears a).setBytes (Width.word.addrs a) (Width.word.bytes (f (assemble bs)))).writeBack rd (assemble bs) 4#32 := by
  have hb : s.bytesAt (Width.word.addrs a) = .ok bs := hl.bytes
  simp [State.amo, hl.aligned, hl.allowed, hs.allowed, hs.memory, hb]

theorem atomically_of_amo {s : State} {rd : Reg} {a old new : Word} {bs : List Byte} {f : Word → Word} {i : Instr}
    (hl : Loadable s a .word bs) (hs : Storable s a .word) (he : exec i s = s.amo rd a f) (hold : assemble bs = old)
    (hnew : f old = new) : Atomically s rd a old new i := by
  subst hold hnew
  obtain ⟨hstored, hregs, hpc, hsame, hres⟩ := hs.effect (f (assemble bs)) 4#32
  obtain ⟨t, ht, heff⟩ := State.writeBack_effect
    ((s.storeClears a).setBytes (Width.word.addrs a) (Width.word.bytes (f (assemble bs)))) rd (assemble bs) 4#32
  have hrest := heff.rest
  unfold SameButRegs at hrest
  refine ⟨t, he.trans ((Storable.amo f hl hs).trans ht), heff.result, fun j hj => (heff.others j hj).trans (hregs j),
    heff.pc.trans hpc, ⟨?_, fun b hb => (heff.memory b).trans (hstored.others b hb)⟩, ?_, ?_⟩
  · exact (State.bytesAt_congr _ heff.memory).trans hstored.stored
  · rw [hrest, State.setBytes_eq, State.storeClears_eq]
    rfl
  · unfold ReservationMay at hres ⊢
    rw [hrest]
    exact hres

theorem minSigned_eq (a b : Word) : minSigned a b = if a.toInt < b.toInt then a else b := by simp [minSigned, ltSigned]

theorem maxSigned_eq (a b : Word) : maxSigned a b = if a.toInt < b.toInt then b else a := by simp [maxSigned, ltSigned]

theorem minUnsigned_eq (a b : Word) : minUnsigned a b = if a.toNat < b.toNat then a else b := by
  simp [minUnsigned, ltUnsigned]

theorem maxUnsigned_eq (a b : Word) : maxUnsigned a b = if a.toNat < b.toNat then b else a := by
  simp [maxUnsigned, ltUnsigned]

/-- An AMO that the decoder reads from its five bits, on a word of RAM. -/
theorem encodes_atomically {s : State} {w pattern old new : Word} {bs : List Byte} {f : Word → Word}
    {mk : BitVec 1 → BitVec 1 → Instr} (hv : s.isV3A = true)
    (hl : Loadable s (s.reg (rs1Of w)) .word bs) (hs : Storable s (s.reg (rs1Of w)) .word) (hold : assemble bs = old)
    (hd : ∀ f7 : BitVec 7, f7.extractLsb' 2 5 = pattern.extractLsb' 27 5 →
      decodeFields f7 (rs2Of w) (rs1Of w) 2#3 (rdOf w) 0x2F#7 = some (mk (f7.extractLsb' 1 1) (f7.extractLsb' 0 1)))
    (hf : ∀ aq rl, (mk aq rl).feature = .a)
    (he : ∀ aq rl, exec (mk aq rl) s = s.amo (rdOf w) (s.reg (rs1Of w)) f) (hnew : f old = new)
    (hop : opcodeOf pattern = 0x2F#7 := by rfl) (hf3 : funct3Of pattern = 2#3 := by rfl)
    (hk : 0xFFFFFFFF#32 &&& 0xF800707F#32 ≠ pattern := by decide) :
    Encodes s w pattern 0xF800707F#32 (mk (w.extractLsb' 26 1) (w.extractLsb' 25 1))
      (Atomically s (rdOf w) (s.reg (rs1Of w)) old new) :=
  encodes_of_amo hd (onMember_of_v3a hv (hf ..)) (atomically_of_amo hl hs (he ..) hold hnew) hop hf3 hk

/-- Settles O34. -/
theorem atomicOps : Obligations.AtomicOps := by
  intro s w b0 b1 b2 b3 hv rd rs1 rs2 aq rl a b old hl hs
  have hold : assemble [b0, b1, b2, b3] = old := assemble_word b0 b1 b2 b3
  refine ⟨?swap, ?add, ?xor, ?and, ?or, ?min, ?max, ?minu, ?maxu⟩
  case swap =>
    exact encodes_atomically (mk := .amoswapW rd rs2 rs1) hv hl hs hold
      (fun f7 h => by simp [decodeFields, decodeAmo, h, rd, rs1, rs2]) (fun _ _ => rfl) (fun _ _ => exec_amoswapW ..) rfl
  case add =>
    exact encodes_atomically (mk := .amoaddW rd rs2 rs1) hv hl hs hold
      (fun f7 h => by simp [decodeFields, decodeAmo, h, rd, rs1, rs2]) (fun _ _ => rfl) (fun _ _ => exec_amoaddW ..) rfl
  case xor =>
    exact encodes_atomically (mk := .amoxorW rd rs2 rs1) hv hl hs hold
      (fun f7 h => by simp [decodeFields, decodeAmo, h, rd, rs1, rs2]) (fun _ _ => rfl) (fun _ _ => exec_amoxorW ..) rfl
  case and =>
    exact encodes_atomically (mk := .amoandW rd rs2 rs1) hv hl hs hold
      (fun f7 h => by simp [decodeFields, decodeAmo, h, rd, rs1, rs2]) (fun _ _ => rfl) (fun _ _ => exec_amoandW ..) rfl
  case or =>
    exact encodes_atomically (mk := .amoorW rd rs2 rs1) hv hl hs hold
      (fun f7 h => by simp [decodeFields, decodeAmo, h, rd, rs1, rs2]) (fun _ _ => rfl) (fun _ _ => exec_amoorW ..) rfl
  case min =>
    exact encodes_atomically (mk := .amominW rd rs2 rs1) hv hl hs hold
      (fun f7 h => by simp [decodeFields, decodeAmo, h, rd, rs1, rs2]) (fun _ _ => rfl) (fun _ _ => exec_amominW ..) (minSigned_eq ..)
  case max =>
    exact encodes_atomically (mk := .amomaxW rd rs2 rs1) hv hl hs hold
      (fun f7 h => by simp [decodeFields, decodeAmo, h, rd, rs1, rs2]) (fun _ _ => rfl) (fun _ _ => exec_amomaxW ..) (maxSigned_eq ..)
  case minu =>
    exact encodes_atomically (mk := .amominuW rd rs2 rs1) hv hl hs hold
      (fun f7 h => by simp [decodeFields, decodeAmo, h, rd, rs1, rs2]) (fun _ _ => rfl) (fun _ _ => exec_amominuW ..) (minUnsigned_eq ..)
  case maxu =>
    exact encodes_atomically (mk := .amomaxuW rd rs2 rs1) hv hl hs hold
      (fun f7 h => by simp [decodeFields, decodeAmo, h, rd, rs1, rs2]) (fun _ _ => rfl) (fun _ _ => exec_amomaxuW ..) (maxUnsigned_eq ..)

end Sys2Proof.Machine
end

section
/-! PROOFS. The CSR instructions: what they do where the access check lets them through, and the exception where it does not
(41 R261 to R268). -/

namespace Sys2Proof.Machine
open Sys2Proof

/-! ### The write -/

/-- The only write that has no outcome is that of a reserved FETCH_MODE (10 R62). -/
theorem State.csrWrite_ok {s : State} {a : CsrNum} {v : Word} (h : ¬(a = 0xBC0#12 ∧ v.getLsbD 1 = true)) :
    ∃ u, s.csrWrite a v = .ok u := by
  unfold State.csrWrite
  split
  case h_21 => exact ⟨_, if_neg fun hv => h ⟨rfl, hv⟩⟩
  all_goals exact ⟨_, rfl⟩

theorem State.csrWrite_reserved {s : State} {v : Word} (h : v.getLsbD 1 = true) :
    s.csrWrite 0xBC0#12 v = .error .reservedFetchMode := if_pos h

/-! ### The instruction -/

section
variable {s : State} {bits : Word} {rd : Reg} {a : CsrNum} {wr : Bool} {f : Word → Word}

theorem State.csrInstr_read (hc : s.csrCheck a false = .ok) :
    s.csrInstr bits rd a false f = s.writeBack rd (s.csrRead a) 4#32 := by
  simp [State.csrInstr, hc, State.writeBack]

theorem State.csrInstr_write {u : State} (hc : s.csrCheck a true = .ok)
    (h : s.csrWrite a (f (s.csrRead a)) = .ok u) : s.csrInstr bits rd a true f = u.writeBack rd (s.csrRead a) 4#32 := by
  simp [State.csrInstr, hc, h, State.writeBack]

theorem State.csrInstr_refused {r : Refusal} (hc : s.csrCheck a true = .ok)
    (h : s.csrWrite a (f (s.csrRead a)) = .error r) : s.csrInstr bits rd a true f = .refused r := by
  simp [State.csrInstr, hc, h]

/-- An allowed CSR instruction: the state whose CSR was written, with the old value in `rd` and the pc moved on. -/
theorem csrCompletes_of_csrInstr {i : Instr} (he : exec i s = s.csrInstr bits rd a wr f) :
    CsrCompletes s rd a wr (f (s.csrRead a)) i := by
  intro hallowed
  have hc := (s.csrCheck_ok_iff a wr).mpr hallowed
  refine ⟨fun ⟨hw, ha, hv⟩ => ?refused, fun hok => ?completes⟩
  case refused =>
    subst ha hw
    exact he.trans (State.csrInstr_refused hc (State.csrWrite_reserved hv))
  case completes =>
    cases wr with
    | false =>
      obtain ⟨t, ht, heff⟩ := s.writeBack_effect rd (s.csrRead a) 4#32
      exact ⟨s, t, rfl, he.trans ((State.csrInstr_read hc).trans ht), heff.result, heff.others, heff.pc, heff.memory, heff.rest⟩
    | true =>
      obtain ⟨u, hu⟩ := State.csrWrite_ok (s := s) (a := a) (v := f (s.csrRead a)) fun h => hok ⟨rfl, h⟩
      obtain ⟨t, ht, heff⟩ := u.writeBack_effect rd (s.csrRead a) 4#32
      obtain ⟨hregs, hpc, hmem, -⟩ := State.csrWrite_fields hu
      refine ⟨u, t, hu, he.trans ((State.csrInstr_write hc hu).trans ht), heff.result, fun j hj => ?_, hpc ▸ heff.pc,
        fun b => (heff.memory b).trans (State.byteAt_congr hmem b), heff.rest⟩
      exact (heff.others j hj).trans (congrArg (fun r : Vector Word 32 => State.reg { s with regs := r } j) hregs)

/-- A denied one is the illegal instruction exception with the word in `mtval`. -/
theorem ExceptionReady.csrInstr_denied {target : Word} (h : ExceptionReady s 2#32 target) (hd : CsrDenied s a wr) :
    TakesException s (s.csrInstr bits rd a wr f) 2#32 bits target := by
  have he : s.csrInstr bits rd a wr f = s.raise .illegal bits := by
    simp [State.csrInstr, (s.csrCheck_illegal_iff a wr).mpr hd]
  rw [he]
  exact h.raise_taken (e := .illegal) (by decide) bits

end

/-! ### The encodings -/

theorem encI_fields {w pattern : Word} (h : w &&& 0x0000707F#32 = pattern) :
    encI (funct3Of pattern) (opcodeOf pattern) (rdOf w) (rs1Of w) (bitsI w) = w := by
  have hop : opcodeOf w = opcodeOf pattern := extract_of_mask h 0 7 (by decide)
  have hf3 : funct3Of w = funct3Of pattern := extract_of_mask h 12 3 (by decide)
  rw [← immI_bits, encI_immI, ← hop, ← hf3, word32_fields]

section
variable {s : State} {w pattern : Word} {mk : Reg → CsrNum → Reg → Instr} {wr : Bool} {f : Word → Word}

/-- A CSR row that completes: the decoder reads its fields, and `exec` is the CSR instruction on them. -/
theorem encodes_csrCompletes
    (hd : ∀ f7 rs2 rs1 rd, decodeFields f7 rs2 rs1 (funct3Of pattern) rd (opcodeOf pattern) = some (mk rd (immI f7 rs2) rs1))
    (he : exec (mk (rdOf w) (bitsI w) (rs1Of w)) s =
      s.csrInstr (encI (funct3Of pattern) (opcodeOf pattern) (rdOf w) (rs1Of w) (bitsI w)) (rdOf w) (bitsI w) wr f)
    (hk : 0xFFFFFFFF#32 &&& 0x0000707F#32 ≠ pattern := by decide)
    (hm : (mk (rdOf w) (bitsI w) (rs1Of w)).onMember s.cfg = true := by rfl) :
    Encodes s w pattern 0x0000707F#32 (mk (rdOf w) (bitsI w) (rs1Of w))
      (CsrCompletes s (rdOf w) (bitsI w) wr (f (s.csrRead (bitsI w)))) :=
  encodes_of_funct3 (immI_bits w ▸ hd ..) (csrCompletes_of_csrInstr he) hk hm

theorem encodes_csrDenied {target : Word} (hready : ExceptionReady s 2#32 target)
    (hd : ∀ f7 rs2 rs1 rd, decodeFields f7 rs2 rs1 (funct3Of pattern) rd (opcodeOf pattern) = some (mk rd (immI f7 rs2) rs1))
    (he : exec (mk (rdOf w) (bitsI w) (rs1Of w)) s =
      s.csrInstr (encI (funct3Of pattern) (opcodeOf pattern) (rdOf w) (rs1Of w) (bitsI w)) (rdOf w) (bitsI w) wr f)
    (hk : 0xFFFFFFFF#32 &&& 0x0000707F#32 ≠ pattern := by decide)
    (hm : (mk (rdOf w) (bitsI w) (rs1Of w)).onMember s.cfg = true := by rfl) :
    Encodes s w pattern 0x0000707F#32 (mk (rdOf w) (bitsI w) (rs1Of w))
      (fun i => CsrDenied s (bitsI w) wr → TakesException s (exec i s) 2#32 w target) := fun h =>
  ⟨(encodes_of_funct3 (holds := fun _ => True) (immI_bits w ▸ hd ..) trivial hk hm h).1, fun hdenied => by
    rw [he, encI_fields h]
    exact hready.csrInstr_denied hdenied⟩

end

/-- Settles O36. -/
theorem csrInstructions : Obligations.CsrInstructions := by
  intro s w rd csr rs1 x z old
  exact ⟨encodes_csrCompletes (mk := .csrrw) (f := fun _ => x) (fun _ _ _ _ => rfl) (exec_csrrw ..),
    encodes_csrCompletes (mk := .csrrs) (f := (· ||| x)) (fun _ _ _ _ => rfl) (exec_csrrs ..),
    encodes_csrCompletes (mk := .csrrc) (f := (· &&& ~~~x)) (fun _ _ _ _ => rfl) (exec_csrrc ..),
    encodes_csrCompletes (mk := .csrrwi) (f := fun _ => z) (fun _ _ _ _ => rfl) (exec_csrrwi ..),
    encodes_csrCompletes (mk := .csrrsi) (f := (· ||| z)) (fun _ _ _ _ => rfl) (exec_csrrsi ..),
    encodes_csrCompletes (mk := .csrrci) (f := (· &&& ~~~z)) (fun _ _ _ _ => rfl) (exec_csrrci ..)⟩

/-- Settles O37. -/
theorem csrDeniedTraps : Obligations.CsrDeniedTraps := by
  intro s w target h rd csr rs1
  exact ⟨encodes_csrDenied (mk := .csrrw) h (fun _ _ _ _ => rfl) (exec_csrrw ..),
    encodes_csrDenied (mk := .csrrs) h (fun _ _ _ _ => rfl) (exec_csrrs ..),
    encodes_csrDenied (mk := .csrrc) h (fun _ _ _ _ => rfl) (exec_csrrc ..),
    encodes_csrDenied (mk := .csrrwi) h (fun _ _ _ _ => rfl) (exec_csrrwi ..),
    encodes_csrDenied (mk := .csrrsi) h (fun _ _ _ _ => rfl) (exec_csrrsi ..),
    encodes_csrDenied (mk := .csrrci) h (fun _ _ _ _ => rfl) (exec_csrrci ..)⟩

end Sys2Proof.Machine
end

section
/-! PROOFS. What each CSR reads after a write (41 R273): the bits of the register words, the write of each register read back, and
the registers a write leaves as they were. -/

namespace Sys2Proof.Machine
open Sys2Proof

/-! ### The bits of a register word -/

theorem getLsbD_flagAt (b : Bool) (n i : Nat) (hi : i < 32) : (flagAt b n).getLsbD i = (b && decide (i = n)) := by
  unfold flagAt
  cases b with
  | false => simp
  | true =>
    have hiff : i = n ↔ n ≤ i ∧ i - n = 0 := by omega
    rcases Nat.lt_or_ge i n with h | h
    · simp [hiff, h]
    · simp [hi, hiff, h]

theorem getLsbD_fieldAt {m n : Nat} (f : BitVec n) (lo i : Nat) (hi : i < m) :
    (fieldAt m f lo).getLsbD i = (decide (lo ≤ i) && f.getLsbD (i - lo)) := by
  unfold fieldAt
  by_cases hlo : lo ≤ i
  · simp [hi, hlo]
  · simp [hlo, Nat.lt_of_not_le hlo]

theorem PmpMode.bits_ofBits (b : BitVec 2) : (PmpMode.ofBits b).bits = b := by
  revert b; decide

/-- A mode field that can hold the value written holds it. -/
theorem State.modeField_bits (s : State) {b : BitVec 2} (h : b = 0#2 ∨ b = 3#2) : (s.modeField b).bits = b := by
  rcases h with rfl | rfl
  · rw [State.modeField_legal (p := .user) rfl]; rfl
  · rw [State.modeField_legal (p := .machine) rfl]; rfl

section
variable (v : Word)

theorem Mstatus.word_enables (mpp : Priv) :
    (Mstatus.word { mie := v.getLsbD 3, mpie := v.getLsbD 7, mpp := mpp }) &&& 0xFFFFE7FF#32 = v &&& 0x88#32 := by
  refine BitVec.eq_of_getLsbD_eq fun i hi => ?_
  simp only [Mstatus.word, BitVec.getLsbD_and, BitVec.getLsbD_or, getLsbD_flagAt _ _ _ hi, getLsbD_fieldAt _ _ _ hi]
  interval_cases i <;> simp

theorem Mstatus.word_mode (m : Mstatus) : m.word &&& 0x1800#32 = fieldAt 32 m.mpp.bits 11 := by
  refine BitVec.eq_of_getLsbD_eq fun i hi => ?_
  simp only [Mstatus.word, BitVec.getLsbD_and, BitVec.getLsbD_or, getLsbD_flagAt _ _ _ hi, getLsbD_fieldAt _ _ _ hi]
  interval_cases i <;> simp

theorem fieldAt_mode : fieldAt 32 (v.extractLsb' 11 2) 11 = v &&& 0x1800#32 := by
  refine BitVec.eq_of_getLsbD_eq fun i hi => ?_
  simp only [BitVec.getLsbD_and, getLsbD_fieldAt _ _ _ hi]
  interval_cases i <;> simp

theorem Mstatus.word_window (m : Mstatus) :
    (Mstatus.word { m with mie := v.getLsbD 3, mpie := v.getLsbD 7 }) = (m.word &&& 0xFFFFFF77#32) ||| (v &&& 0x88#32) := by
  refine BitVec.eq_of_getLsbD_eq fun i hi => ?_
  simp only [Mstatus.word, BitVec.getLsbD_and, BitVec.getLsbD_or, getLsbD_flagAt _ _ _ hi, getLsbD_fieldAt _ _ _ hi]
  interval_cases i <;> simp

theorem Mtvec.word_written (c : Bool) :
    (Mtvec.word { base := v.extractLsb' 10 22, mode1 := !c && v.getLsbD 1, mode0 := v.getLsbD 0 }) =
      v &&& (if c then 0xFFFFFC01#32 else 0xFFFFFC03#32) := by
  refine BitVec.eq_of_getLsbD_eq fun i hi => ?_
  simp only [Mtvec.word, Mtvec.baseAddr, BitVec.getLsbD_and, BitVec.getLsbD_or, getLsbD_flagAt _ _ _ hi, getLsbD_fieldAt _ _ _ hi]
  cases c <;> interval_cases i <;> simp

theorem TriggerChannel.tdata1_written (t : TriggerChannel) :
    (TriggerChannel.tdata1 { t with
      action := v.getLsbD 12, range := v.getLsbD 7, m := v.getLsbD 6, u := v.getLsbD 3, execute := v.getLsbD 2,
      store := v.getLsbD 1, load := v.getLsbD 0 }) = 0x2BE00000#32 ||| (v &&& 0x10CF#32) := by
  refine BitVec.eq_of_getLsbD_eq fun i hi => ?_
  simp only [TriggerChannel.tdata1, BitVec.getLsbD_and, BitVec.getLsbD_or, getLsbD_flagAt _ _ _ hi]
  interval_cases i <;> simp

theorem Dcsr.word_written (d : Dcsr) (p : Priv) :
    (Dcsr.word { d with
      ebreakm := v.getLsbD 15, ebreaku := v.getLsbD 12, stepie := v.getLsbD 11, stoptime := v.getLsbD 9, step := v.getLsbD 2,
      prv := p }) &&& 0xFFFFFFFC#32 = 0x40000000#32 ||| (v &&& 0x9A04#32) ||| (d.word &&& 0x1C0#32) := by
  refine BitVec.eq_of_getLsbD_eq fun i hi => ?_
  simp only [Dcsr.word, BitVec.getLsbD_and, BitVec.getLsbD_or, getLsbD_flagAt _ _ _ hi, getLsbD_fieldAt _ _ _ hi]
  interval_cases i <;> simp

theorem Dcsr.word_mode (d : Dcsr) : d.word &&& 3#32 = fieldAt 32 d.prv.bits 0 := by
  refine BitVec.eq_of_getLsbD_eq fun i hi => ?_
  simp only [Dcsr.word, BitVec.getLsbD_and, BitVec.getLsbD_or, getLsbD_flagAt _ _ _ hi, getLsbD_fieldAt _ _ _ hi]
  interval_cases i <;> simp

theorem fieldAt_lowMode : fieldAt 32 (v.extractLsb' 0 2) 0 = v &&& 3#32 := by
  refine BitVec.eq_of_getLsbD_eq fun i hi => ?_
  simp only [BitVec.getLsbD_and, getLsbD_fieldAt _ _ _ hi]
  interval_cases i <;> simp

theorem Intsyscr.word_written (i : Intsyscr) (l c : Bool) :
    (Intsyscr.word
      { lock := l
        gihwstknen := i.gihwstknen || v.getLsbD 5
        pmtcfg := if c then v.extractLsb' 2 2 else i.pmtcfg
        inesten := if c then v.getLsbD 1 else i.inesten
        hwstken := v.getLsbD 0 }) &&& 0x7FFFFFFF#32 =
      (i.word &&& 0x20#32) ||| (v &&& 0x21#32) ||| ((if c then v else i.word) &&& 0xE#32) := by
  refine BitVec.eq_of_getLsbD_eq fun i hi => ?_
  cases c <;> simp only [Intsyscr.word, BitVec.getLsbD_and, BitVec.getLsbD_or, getLsbD_flagAt _ _ _ hi, getLsbD_fieldAt _ _ _ hi,
    if_true, if_false, Bool.false_eq_true] <;> interval_cases i <;> simp

theorem Intsyscr.word_lock (i : Intsyscr) : i.word.getLsbD 31 = i.lock := by
  have hi : 31 < 32 := by decide
  simp only [Intsyscr.word, BitVec.getLsbD_or, getLsbD_flagAt _ _ _ hi, getLsbD_fieldAt _ _ _ hi]
  simp

theorem Corecfgr.word_written :
    (Corecfgr.word
      { nmiIe := v.getLsbD 7
        ieRemapEn := v.getLsbD 5
        romLoopAcc := v.getLsbD 3
        romJumpAcc := v.getLsbD 2
        prefetch := v.getLsbD 0 }) = v &&& 0xAD#32 := by
  refine BitVec.eq_of_getLsbD_eq fun i hi => ?_
  simp only [Corecfgr.word, BitVec.getLsbD_and, BitVec.getLsbD_or, getLsbD_flagAt _ _ _ hi]
  interval_cases i <;> simp

/-- NEST_LVL holds 01 for every non-zero value of its two bits (10 R63). -/
theorem flagAt_nestLvl : flagAt (v.getLsbD 0 || v.getLsbD 1) 0 = if v &&& 3#32 = 0#32 then 0#32 else 1#32 := by
  rw [← fieldAt_lowMode]
  have h0 : v.getLsbD 0 = (v.extractLsb' 0 2).getLsbD 0 := by simp
  have h1 : v.getLsbD 1 = (v.extractLsb' 0 2).getLsbD 1 := by simp
  rw [h0, h1]
  generalize v.extractLsb' 0 2 = b
  revert b
  decide

theorem Inestcr.word_written (i : Inestcr) (n : Nat) (h : n ≤ 3) :
    (Inestcr.word { nestOv := i.nestOv && !v.getLsbD 30, nestLvl := v.getLsbD 0 || v.getLsbD 1 } n) =
      (i.word n &&& ~~~v &&& 0x40000000#32) ||| (i.word n &&& 0xF00#32) ||| (if v &&& 3#32 = 0#32 then 0#32 else 1#32) := by
  rw [← flagAt_nestLvl]
  refine BitVec.eq_of_getLsbD_eq fun i hi => ?_
  simp only [Inestcr.word, BitVec.getLsbD_and, BitVec.getLsbD_or, BitVec.getLsbD_not, getLsbD_flagAt _ _ _ hi]
  interval_cases n <;> interval_cases i <;> simp [nestStatus]

/-! ### The configuration bytes of the PMP -/

theorem Pmp.cfgWord_byte (p : Pmp) (k : Fin 4) : p.cfgWord.extractLsb' (8 * k.val) 8 = p.cfg[k].byte := by
  rw [Pmp.cfgWord, assemble_word]
  refine BitVec.eq_of_getLsbD_eq fun i hi => ?_
  simp only [BitVec.getLsbD_extractLsb', BitVec.getLsbD_setWidth, BitVec.getLsbD_append]
  fin_cases k <;> interval_cases i <;> simp

theorem PmpCfg.getLsbD_byte (c : PmpCfg) (i : Nat) (hi : i < 8) :
    c.byte.getLsbD i = (c.l && decide (i = 7) || c.x && decide (i = 2) || c.w && decide (i = 1) || c.r && decide (i = 0) ||
      decide (3 ≤ i) && c.a.bits.getLsbD (i - 3)) := by
  have hi32 : i < 32 := by omega
  simp only [PmpCfg.byte, BitVec.getLsbD_or, BitVec.getLsbD_setWidth, getLsbD_flagAt _ _ _ hi32, getLsbD_fieldAt _ _ _ hi, hi,
    decide_true, Bool.true_and]

theorem PmpCfg.byte_lock (c : PmpCfg) : c.byte.getLsbD 7 = c.l := by
  have ha : c.a.bits.getLsbD 4 = false := BitVec.getLsbD_of_ge _ _ (by decide)
  rw [PmpCfg.getLsbD_byte c 7 (by decide), ha]
  simp

theorem PmpCfg.byte_read (c : PmpCfg) : c.byte.getLsbD 0 = c.r := by
  rw [PmpCfg.getLsbD_byte c 0 (by decide)]
  simp

theorem PmpCfg.byte_write (c : PmpCfg) : c.byte.getLsbD 1 = c.w := by
  rw [PmpCfg.getLsbD_byte c 1 (by decide)]
  simp

theorem PmpCfg.byte_high {c : PmpCfg} {b : Byte} (hl : c.l = b.getLsbD 7) (ha : c.a = PmpMode.ofBits (b.extractLsb' 3 2)) :
    c.byte &&& 0xF8#8 = b &&& 0x98#8 := by
  refine BitVec.eq_of_getLsbD_eq fun i hi => ?_
  simp only [BitVec.getLsbD_and, PmpCfg.getLsbD_byte c i hi, hl, ha, PmpMode.bits_ofBits]
  interval_cases i <;> simp

theorem PmpCfg.byte_low {c : PmpCfg} {b : Byte} (hx : c.x = b.getLsbD 2) (hw : c.w = b.getLsbD 1) (hr : c.r = b.getLsbD 0) :
    c.byte &&& 7#8 = b &&& 7#8 := by
  refine BitVec.eq_of_getLsbD_eq fun i hi => ?_
  simp only [BitVec.getLsbD_and, PmpCfg.getLsbD_byte c i hi, hx, hw, hr]
  interval_cases i <;> simp

/-- What a byte of `pmpcfg0` is after a write of it while unlocked: the lock and mode bits as written; the permissions as
written where they are legal, and legal (20 R138). -/
theorem PmpCfg.written_byte {c : PmpCfg} (h : c.l = false) (d : Nat) (b : Byte) :
    (c.written d b).byte &&& 0xF8#8 = b &&& 0x98#8 ∧
      ((c.written d b).byte.getLsbD 1 = true → (c.written d b).byte.getLsbD 0 = true) ∧
        (b.getLsbD 0 = true ∨ b.getLsbD 1 = false → (c.written d b).byte &&& 7#8 = b &&& 7#8) := by
  rw [PmpCfg.written, h, if_neg Bool.false_ne_true]
  dsimp only
  rw [PmpCfg.byte_write, PmpCfg.byte_read]
  by_cases hb : (!b.getLsbD 0 && b.getLsbD 1) = true
  · rw [if_pos hb]
    simp only [Bool.and_eq_true, Bool.not_eq_true'] at hb
    refine ⟨PmpCfg.byte_high rfl rfl, fun hw => ((Bool.and_eq_true ..).mp hw).1, fun hlegal => absurd hlegal ?_⟩
    rw [hb.1, hb.2]
    decide
  · rw [if_neg hb]
    refine ⟨PmpCfg.byte_high rfl rfl, fun hw => ?_, fun _ => PmpCfg.byte_low rfl rfl rfl⟩
    simpa [show b.getLsbD 1 = true from hw] using hb

end

/-! ### The registers a write leaves -/

section
variable {s : State} {v : Word} {b : CsrNum}

/-- What `csrRead` reads of the state. -/
def SameCsrs (s u : State) : Prop :=
  u.csr = s.csr ∧ u.pmp = s.pmp ∧ u.trig = s.trig ∧ u.dbg = s.dbg ∧ u.cfg = s.cfg ∧ u.nest = s.nest

theorem State.csrRead_congr {u : State} (h : SameCsrs s u) (b : CsrNum) : u.csrRead b = s.csrRead b := by
  obtain ⟨hcsr, hpmp, htrig, hdbg, hcfg, hnest⟩ := h
  have hlevel : u.level = s.level := congrArg List.length hnest
  simp only [State.csrRead, hcsr, hpmp, htrig, hdbg, hcfg, hlevel]

theorem State.afterModeField_csrs (s : State) (x : BitVec 2) : SameCsrs s (s.afterModeField x) := by
  unfold State.afterModeField
  split <;> exact ⟨rfl, rfl, rfl, rfl, rfl, rfl⟩

theorem State.csrRead_mstatus_other (x : Mstatus) (h0 : b ≠ 0x300#12) (h8 : b ≠ 0x800#12) :
    State.csrRead { s with csr := { s.csr with mstatus := x } } b = s.csrRead b := by
  unfold State.csrRead
  split
  case h_3 => exact absurd rfl h0
  case h_22 => exact absurd rfl h8
  all_goals rfl

theorem State.csrRead_mtvec_other (x : Mtvec) (h : b ≠ 0x305#12) :
    State.csrRead { s with csr := { s.csr with mtvec := x } } b = s.csrRead b := by
  unfold State.csrRead
  split
  case h_5 => exact absurd rfl h
  all_goals rfl

theorem State.csrRead_mscratch_other (x : Word) (h : b ≠ 0x340#12) :
    State.csrRead { s with csr := { s.csr with mscratch := x } } b = s.csrRead b := by
  unfold State.csrRead
  split
  case h_6 => exact absurd rfl h
  all_goals rfl

theorem State.csrRead_mepc_other (x : Word) (h : b ≠ 0x341#12) :
    State.csrRead { s with csr := { s.csr with mepc := x } } b = s.csrRead b := by
  unfold State.csrRead
  split
  case h_7 => exact absurd rfl h
  all_goals rfl

theorem State.csrRead_mcause_other (x : Word) (h : b ≠ 0x342#12) :
    State.csrRead { s with csr := { s.csr with mcause := x } } b = s.csrRead b := by
  unfold State.csrRead
  split
  case h_8 => exact absurd rfl h
  all_goals rfl

theorem State.csrRead_mtval_other (x : Word) (h : b ≠ 0x343#12) :
    State.csrRead { s with csr := { s.csr with mtval := x } } b = s.csrRead b := by
  unfold State.csrRead
  split
  case h_9 => exact absurd rfl h
  all_goals rfl

theorem State.csrRead_intsyscr_other (x : Intsyscr) (h : b ≠ 0x804#12) :
    State.csrRead { s with csr := { s.csr with intsyscr := x } } b = s.csrRead b := by
  unfold State.csrRead
  split
  case h_23 => exact absurd rfl h
  all_goals rfl

theorem State.csrRead_corecfgr_other (x : Corecfgr) (h : b ≠ 0xBC0#12) :
    State.csrRead { s with csr := { s.csr with corecfgr := x } } b = s.csrRead b := by
  unfold State.csrRead
  split
  case h_24 => exact absurd rfl h
  all_goals rfl

theorem State.csrRead_inestcr_other (x : Inestcr) (h : b ≠ 0xBC1#12) :
    State.csrRead { s with csr := { s.csr with inestcr := x } } b = s.csrRead b := by
  unfold State.csrRead
  split
  case h_25 => exact absurd rfl h
  all_goals rfl

theorem State.csrRead_pmpcfg_other (x : Vector PmpCfg 4) (h : b ≠ 0x3A0#12) :
    State.csrRead { s with pmp := { s.pmp with cfg := x } } b = s.csrRead b := by
  unfold State.csrRead
  split
  case h_10 => exact absurd rfl h
  all_goals rfl

theorem State.csrRead_dcsr_other (x : Dcsr) (h : b ≠ 0x7B0#12) :
    State.csrRead { s with dbg := { s.dbg with dcsr := x } } b = s.csrRead b := by
  unfold State.csrRead
  split
  case h_18 => exact absurd rfl h
  all_goals rfl

theorem State.csrRead_dpc_other (x : Word) (h : b ≠ 0x7B1#12) :
    State.csrRead { s with dbg := { s.dbg with dpc := x } } b = s.csrRead b := by
  unfold State.csrRead
  split
  case h_19 => exact absurd rfl h
  all_goals rfl

theorem State.csrRead_dscratch0_other (x : Word) (h : b ≠ 0x7B2#12) :
    State.csrRead { s with dbg := { s.dbg with dscratch0 := x } } b = s.csrRead b := by
  unfold State.csrRead
  split
  case h_20 => exact absurd rfl h
  all_goals rfl

theorem State.csrRead_dscratch1_other (x : Word) (h : b ≠ 0x7B3#12) :
    State.csrRead { s with dbg := { s.dbg with dscratch1 := x } } b = s.csrRead b := by
  unfold State.csrRead
  split
  case h_21 => exact absurd rfl h
  all_goals rfl

theorem State.csrRead_pmpaddr (s : State) (k : Fin 4) : s.csrRead (0x3B0#12 + BitVec.ofNat 12 k.val) = s.pmp.addr[k] := by
  fin_cases k <;> rfl

theorem State.csrWrite_pmpaddr (s : State) (k : Fin 4) (v : Word) :
    s.csrWrite (0x3B0#12 + BitVec.ofNat 12 k.val) v = .ok (s.writePmpaddr k v) := by
  fin_cases k <;> rfl

theorem State.writePmpaddr_other {k : Fin 4} (h : b ≠ 0x3B0#12 + BitVec.ofNat 12 k.val) :
    (s.writePmpaddr k v).csrRead b = s.csrRead b := by
  have haddr : ∀ j : Fin 4, b = 0x3B0#12 + BitVec.ofNat 12 j.val → (s.writePmpaddr k v).pmp.addr[j] = s.pmp.addr[j] :=
    fun j hj => State.writePmpaddr_addr (fun he => absurd (he ▸ hj) h) v
  have hcfg : (s.writePmpaddr k v).pmp.cfgWord = s.pmp.cfgWord := by rw [Pmp.cfgWord, State.writePmpaddr_cfg]; rfl
  have hrest : s.writePmpaddr k v = { s with
      pmp := (s.writePmpaddr k v).pmp, pmpBefore := (s.writePmpaddr k v).pmpBefore, draws := (s.writePmpaddr k v).draws } := by
    unfold State.writePmpaddr
    split <;> rfl
  rw [hrest]
  unfold State.csrRead
  split
  case h_10 => exact hcfg
  case h_11 => exact haddr 0 rfl
  case h_12 => exact haddr 1 rfl
  case h_13 => exact haddr 2 rfl
  case h_14 => exact haddr 3 rfl
  all_goals rfl

/-- The other triggers' registers are read only through `tselect`. -/
theorem State.csrRead_trig_other (x : Triggers) (h0 : b ≠ 0x7A0#12) (h1 : b ≠ 0x7A1#12) (h2 : b ≠ 0x7A2#12) :
    State.csrRead { s with trig := x } b = s.csrRead b := by
  unfold State.csrRead
  split
  case h_15 => exact absurd rfl h0
  case h_16 => exact absurd rfl h1
  case h_17 => exact absurd rfl h2
  all_goals rfl

end

end Sys2Proof.Machine
end

section
/-! PROOFS. Each CSR write read back, and all other CSRs (41 R273). -/

namespace Sys2Proof.Machine
open Sys2Proof

section
variable {s u : State} {v : Word}

/-! ### The registers a write leaves -/

theorem State.writeMstatus_others {b : CsrNum} (h0 : b ≠ 0x300#12) (h8 : b ≠ 0x800#12) :
    (s.writeMstatus v).csrRead b = s.csrRead b := by
  obtain ⟨-, hpmp, htrig, hdbg, hcfg, hnest⟩ := s.afterModeField_csrs (v.extractLsb' 11 2)
  have hsame : SameCsrs { s with csr := (s.writeMstatus v).csr } (s.writeMstatus v) := ⟨rfl, hpmp, htrig, hdbg, hcfg, hnest⟩
  exact (State.csrRead_congr hsame b).trans (State.csrRead_mstatus_other _ h0 h8)

theorem State.writeDcsr_others {b : CsrNum} (hb : b ≠ 0x7B0#12) : (s.writeDcsr v).csrRead b = s.csrRead b := by
  obtain ⟨hcsr, hpmp, htrig, -, hcfg, hnest⟩ := s.afterModeField_csrs (v.extractLsb' 0 2)
  have hsame : SameCsrs { s with dbg := (s.writeDcsr v).dbg } (s.writeDcsr v) := ⟨hcsr, hpmp, htrig, rfl, hcfg, hnest⟩
  exact (State.csrRead_congr hsame b).trans (State.csrRead_dcsr_other _ hb)

theorem Triggers.current_set (t : Triggers) (c : TriggerChannel) (h : t.select.toNat < 4) :
    Triggers.current { t with channel := t.channel.set t.select.toNat c h } = c := Vector.getElem_set_self h

theorem State.writeTdata1_others {b : CsrNum} (hb : b ≠ 0x7A1#12) : (s.writeTdata1 v).csrRead b = s.csrRead b := by
  by_cases h0 : b = 0x7A0#12
  · subst h0; rfl
  by_cases h2 : b = 0x7A2#12
  · subst h2
    exact (congrArg TriggerChannel.tdata2 (Triggers.current_set ..)).trans rfl
  exact State.csrRead_trig_other _ h0 hb h2

theorem State.writeTdata2_others {b : CsrNum} (hb : b ≠ 0x7A2#12) : (s.writeTdata2 v).csrRead b = s.csrRead b := by
  by_cases h0 : b = 0x7A0#12
  · subst h0; rfl
  by_cases h1 : b = 0x7A1#12
  · subst h1
    exact (congrArg TriggerChannel.tdata1 (Triggers.current_set ..)).trans rfl
  exact State.csrRead_trig_other _ h0 h1 hb

theorem State.writeGintenr_others {b : CsrNum} (h0 : b ≠ 0x300#12) (h8 : b ≠ 0x800#12) :
    (s.writeGintenr v).csrRead b = s.csrRead b := by
  unfold State.writeGintenr
  split
  · exact State.csrRead_mstatus_other _ h0 h8
  · rfl

theorem State.writeCorecfgr_eq (h : v.getLsbD 1 = false) :
    s.writeCorecfgr v = .ok { s with csr := { s.csr with
      corecfgr := { nmiIe := v.getLsbD 7, ieRemapEn := v.getLsbD 5, romLoopAcc := v.getLsbD 3, romJumpAcc := v.getLsbD 2,
                    prefetch := v.getLsbD 0 } } } := if_neg (h ▸ Bool.false_ne_true)

/-- A write leaves every other CSR, but for the window on `mstatus` and what `tselect` selects. -/
theorem State.csrWrite_others {a b : CsrNum} (h : s.csrWrite a v = .ok u) (hb : b ≠ a) (hm : ¬(a = 0x300#12 ∧ b = 0x800#12))
    (hg : ¬(a = 0x800#12 ∧ b = 0x300#12)) (ht : ¬(a = 0x7A0#12 ∧ (b = 0x7A1#12 ∨ b = 0x7A2#12))) :
    u.csrRead b = s.csrRead b := by
  unfold State.csrWrite at h
  split at h
  case h_21 =>
    cases hv : v.getLsbD 1 with
    | true => exact absurd ((State.csrWrite_reserved hv).symm.trans h) (by simp)
    | false =>
      cases (State.writeCorecfgr_eq hv).symm.trans h
      exact State.csrRead_corecfgr_other _ hb
  all_goals cases h
  case h_1 => exact State.writeMstatus_others hb fun h => hm ⟨rfl, h⟩
  case h_2 => exact State.csrRead_mtvec_other _ hb
  case h_3 => exact State.csrRead_mscratch_other _ hb
  case h_4 => exact State.csrRead_mepc_other _ hb
  case h_5 => exact State.csrRead_mcause_other _ hb
  case h_6 => exact State.csrRead_mtval_other _ hb
  case h_7 => exact State.csrRead_pmpcfg_other _ hb
  case h_8 => exact State.writePmpaddr_other (k := 0) hb
  case h_9 => exact State.writePmpaddr_other (k := 1) hb
  case h_10 => exact State.writePmpaddr_other (k := 2) hb
  case h_11 => exact State.writePmpaddr_other (k := 3) hb
  case h_12 => exact State.csrRead_trig_other _ hb (fun h => ht ⟨rfl, .inl h⟩) fun h => ht ⟨rfl, .inr h⟩
  case h_13 => exact State.writeTdata1_others hb
  case h_14 => exact State.writeTdata2_others hb
  case h_15 => exact State.writeDcsr_others hb
  case h_16 => exact State.csrRead_dpc_other _ hb
  case h_17 => exact State.csrRead_dscratch0_other _ hb
  case h_18 => exact State.csrRead_dscratch1_other _ hb
  case h_19 => exact State.writeGintenr_others (fun h => hg ⟨rfl, h⟩) hb
  case h_20 => exact State.csrRead_intsyscr_other _ hb
  case h_22 => exact State.csrRead_inestcr_other _ hb
  case h_23 => rfl

/-- The CSRs that ignore a write: `misa` and the read-only numbers. -/
theorem State.csrWrite_ignored {a : CsrNum} (h : s.csrWrite a v = .ok u) (ha : a = 0x301#12 ∨ a.extractLsb' 10 2 = 3#2) :
    u = s := by
  unfold State.csrWrite at h
  split at h
  case h_23 => cases h; rfl
  all_goals exact absurd ha (by decide)

/-! ### The register written, read back -/

theorem State.csrWrite_whole {a : CsrNum} (h : s.csrWrite a v = .ok u)
    (ha : a ∈ [0x340#12, 0x341#12, 0x342#12, 0x343#12, 0x7A2#12, 0x7B1#12, 0x7B2#12, 0x7B3#12]) : u.csrRead a = v := by
  simp only [List.mem_cons, List.not_mem_nil, or_false] at ha
  rcases ha with rfl | rfl | rfl | rfl | rfl | rfl | rfl | rfl
  case inr.inr.inr.inr.inl =>
    cases h
    exact congrArg TriggerChannel.tdata2 (Triggers.current_set ..)
  all_goals cases h; rfl

theorem State.csrWrite_mstatus (h : s.csrWrite 0x300#12 v = .ok u) :
    u.csrRead 0x300#12 &&& 0xFFFFE7FF#32 = v &&& 0x88#32 ∧
      (v.extractLsb' 11 2 = 0#2 ∨ v.extractLsb' 11 2 = 3#2 → u.csrRead 0x300#12 &&& 0x1800#32 = v &&& 0x1800#32) ∧
        (u.csrRead 0x300#12 &&& 0x1800#32 = 0#32 ∨ u.csrRead 0x300#12 &&& 0x1800#32 = 0x1800#32) := by
  cases h
  refine ⟨Mstatus.word_enables .., fun hmode => ?_, ?_⟩
  · refine (Mstatus.word_mode _).trans ((congrArg (fieldAt 32 · 11) (s.modeField_bits hmode)).trans (fieldAt_mode v))
  · rw [show (s.writeMstatus v).csrRead 0x300#12 &&& 0x1800#32 = fieldAt 32 (s.modeField (v.extractLsb' 11 2)).bits 11 from
      Mstatus.word_mode _]
    cases s.modeField (v.extractLsb' 11 2) with
    | user => exact .inl rfl
    | machine => exact .inr rfl

theorem State.csrWrite_mtvec (h : s.csrWrite 0x305#12 v = .ok u) :
    u.csrRead 0x305#12 = v &&& (if s.isV3A then 0xFFFFFC01#32 else 0xFFFFFC03#32) := by
  cases h
  exact Mtvec.word_written ..

theorem State.csrWrite_dcsr (h : s.csrWrite 0x7B0#12 v = .ok u) :
    u.csrRead 0x7B0#12 &&& 0xFFFFFFFC#32 = 0x40000000#32 ||| (v &&& 0x9A04#32) ||| (s.csrRead 0x7B0#12 &&& 0x1C0#32) ∧
      (v.extractLsb' 0 2 = 0#2 ∨ v.extractLsb' 0 2 = 3#2 → u.csrRead 0x7B0#12 &&& 3#32 = v &&& 3#32) := by
  cases h
  exact ⟨Dcsr.word_written .., fun hmode =>
    (Dcsr.word_mode _).trans ((congrArg (fieldAt 32 · 0) (s.modeField_bits hmode)).trans (fieldAt_lowMode v))⟩

theorem State.csrWrite_gintenr (h : s.csrWrite 0x800#12 v = .ok u) :
    u.csrRead 0x800#12 =
      if s.csr.corecfgr.ieRemapEn then (s.csrRead 0x800#12 &&& 0xFFFFFF77#32) ||| (v &&& 0x88#32) else s.csrRead 0x800#12 := by
  obtain rfl : s.writeGintenr v = u := Except.ok.inj h
  unfold State.writeGintenr
  split
  · exact Mstatus.word_window ..
  · rfl

theorem State.csrWrite_intsyscr (h : s.csrWrite 0x804#12 v = .ok u) :
    u.csrRead 0x804#12 &&& 0x7FFFFFFF#32 =
        (s.csrRead 0x804#12 &&& 0x20#32) ||| (v &&& 0x21#32) |||
          ((if 1 ≤ s.cfg.coreMajor.toNat then v else s.csrRead 0x804#12) &&& 0xE#32) ∧
      (s.priv = .user → (u.csrRead 0x804#12).getLsbD 31 = (s.csrRead 0x804#12).getLsbD 31) ∧
        ((s.csrRead 0x804#12).getLsbD 31 = false → v.getLsbD 31 = false → (u.csrRead 0x804#12).getLsbD 31 = false) := by
  cases h
  have hold : (s.csrRead 0x804#12).getLsbD 31 = s.csr.intsyscr.lock := Intsyscr.word_lock _
  have hnew : ((s.writeIntsyscr v).csrRead 0x804#12).getLsbD 31 = s.lockField (v.getLsbD 31) := Intsyscr.word_lock _
  rw [hold, hnew]
  refine ⟨?_, fun hu => if_pos hu, fun hl hv => ?_⟩
  · have hv1 : (if 1 ≤ s.cfg.coreMajor.toNat then v else s.csrRead 0x804#12) = if s.cfg.fromV1 then v else s.csrRead 0x804#12 := by
      simp only [Config.fromV1, decide_eq_true_eq]
    rw [hv1]
    exact Intsyscr.word_written ..
  · rw [State.lockField, hl, hv]
    split <;> rfl

theorem State.csrWrite_pmpcfg (h : s.csrWrite 0x3A0#12 v = .ok u) (k : Fin 4) :
    ∃ d, (u.csrRead 0x3A0#12).extractLsb' (8 * k.val) 8 = (s.pmp.cfg[k].written d (v.extractLsb' (8 * k.val) 8)).byte := by
  cases h
  refine ⟨s.draws + 3 * k.val, (Pmp.cfgWord_byte _ k).trans (congrArg PmpCfg.byte ?_)⟩
  fin_cases k <;> rfl

theorem State.csrWrite_pmpaddr_reads (k : Fin 4) (h : s.csrWrite (0x3B0#12 + BitVec.ofNat 12 k.val) v = .ok u) :
    if s.pmp.addrLocked k then u.csrRead (0x3B0#12 + BitVec.ofNat 12 k.val) = s.csrRead (0x3B0#12 + BitVec.ofNat 12 k.val)
    else u.csrRead (0x3B0#12 + BitVec.ofNat 12 k.val) &&& 0x3FFFFFFF#32 = v &&& 0x3FFFFFFF#32 := by
  rw [State.csrWrite_pmpaddr] at h
  cases h
  rw [State.csrRead_pmpaddr, State.csrRead_pmpaddr]
  split
  case isTrue hl => exact State.writePmpaddr_addr (fun _ => hl) v
  case isFalse hl =>
    have hset : (s.writePmpaddr k v).pmp.addr[k] = (v &&& 0x3FFFFFFF#32) ||| (Config.freeWord s.draws &&& 0xC0000000#32) := by
      rw [State.writePmpaddr, if_neg hl]
      exact Vector.getElem_set_self k.isLt
    rw [hset]
    generalize Config.freeWord s.draws = f
    refine BitVec.eq_of_getLsbD_eq fun i hi => ?_
    simp only [BitVec.getLsbD_and, BitVec.getLsbD_or]
    interval_cases i <;> simp

theorem Pmp.addrLocked_iff (p : Pmp) (k : Fin 4) :
    p.addrLocked k = true ↔ p.cfg[k].l = true ∨ ∃ j : Fin 4, j.val = k.val + 1 ∧ p.cfg[j].l = true ∧ p.cfg[j].a = .tor := by
  rw [Pmp.addrLocked, Bool.or_eq_true]
  refine or_congr Iff.rfl ?_
  split
  case isTrue hk =>
    rw [Bool.and_eq_true, beq_iff_eq]
    refine ⟨fun h => ⟨⟨k.val + 1, by omega⟩, rfl, h⟩, ?_⟩
    rintro ⟨⟨j, hj⟩, rfl, h⟩
    exact h
  case isFalse hk =>
    refine ⟨fun h => absurd h Bool.false_ne_true, ?_⟩
    rintro ⟨j, hj, -⟩
    omega

end

/-- Settles O39, register by register. -/
theorem csrWriteRules : Obligations.CsrWriteRules := by
  intro s a v hlevel
  refine ⟨fun ha hv => ha ▸ State.csrWrite_reserved hv, fun hok => ?_⟩
  obtain ⟨u, hu⟩ := State.csrWrite_ok (s := s) (a := a) (v := v) fun h =>
    Bool.false_ne_true ((hok h.1).symm.trans h.2)
  refine ⟨u, hu, State.csrWrite_whole hu, ?mstatus, ?mtvec, ?pmpcfg, ?pmpaddr, ?tselect, ?tdata1, ?dcsr, ?gintenr, ?intsyscr,
    ?corecfgr, ?inestcr, State.csrWrite_ignored hu, fun b => State.csrWrite_others hu⟩
  case mstatus => rintro rfl; exact State.csrWrite_mstatus hu
  case mtvec => rintro rfl; exact State.csrWrite_mtvec hu
  case pmpcfg =>
    rintro rfl k
    have hold : (s.csrRead 0x3A0#12).extractLsb' (8 * k.val) 8 = s.pmp.cfg[k].byte := Pmp.cfgWord_byte _ k
    obtain ⟨d, hnew⟩ := State.csrWrite_pmpcfg hu k
    dsimp only
    rw [hold, hnew, PmpCfg.byte_lock]
    exact ⟨fun hl => congrArg PmpCfg.byte (PmpCfg.written_locked hl ..), fun hl => PmpCfg.written_byte hl ..⟩
  case pmpaddr =>
    rintro k rfl
    simp only [← Pmp.addrLocked_iff]
    exact State.csrWrite_pmpaddr_reads k hu
  case tselect => rintro rfl; cases hu; exact fieldAt_lowMode v
  case tdata1 =>
    rintro rfl
    cases hu
    exact (congrArg TriggerChannel.tdata1 (Triggers.current_set ..)).trans (TriggerChannel.tdata1_written ..)
  case dcsr => rintro rfl; exact State.csrWrite_dcsr hu
  case gintenr => rintro rfl; exact State.csrWrite_gintenr hu
  case intsyscr => rintro rfl; exact State.csrWrite_intsyscr hu
  case corecfgr =>
    rintro rfl
    cases (State.writeCorecfgr_eq (hok rfl)).symm.trans hu
    exact Corecfgr.word_written v
  case inestcr => rintro rfl; cases hu; exact Inestcr.word_written v _ _ hlevel

end Sys2Proof.Machine
end

section
/-! PROOFS. The return from a trap (60 R526 to R532), the round trip of the hardware stack, and the overflow state (60 R537). -/

namespace Sys2Proof.Machine
open Sys2Proof

/-! ### Registers from a frame -/

theorem hpeIndex_hpeRegs : ∀ k : Fin 16, hpeIndex (BitVec.ofNat 5 (hpeRegs[k]).toNat) = some k := by decide

theorem hpeRegs_ne_zero : ∀ k : Fin 16, hpeRegs[k] ≠ 0#5 := by decide

theorem hpeIndex_none {j : Reg} (h : ∀ k : Fin 16, hpeRegs[k] ≠ j) : hpeIndex j = none := by
  rw [hpeIndex, List.find?_eq_none]
  intro k _ hk
  exact h k (beq_iff_eq.mp hk)

section
variable {s : State} {lv : Nat}

theorem State.hpePop_reg_saved (h : lv - 1 < 2) (k : Fin 16) : (s.hpePop lv).reg hpeRegs[k] = (s.hpe[lv - 1])[k] := by
  rw [State.reg, if_neg (hpeRegs_ne_zero k), State.hpePop, dif_pos h]
  simp only [Vector.getElem_ofFn, hpeIndex_hpeRegs k]

theorem State.hpePop_reg_other {j : Reg} (h : ∀ k : Fin 16, hpeRegs[k] ≠ j) : (s.hpePop lv).reg j = s.reg j := by
  unfold State.reg State.hpePop
  split
  · rfl
  · split
    · simp only [Vector.getElem_ofFn, BitVec.ofNat_toNat, BitVec.setWidth_eq, hpeIndex_none h]
      rfl
    · rfl

/-! ### The return -/

/-- The innermost trap is left: what the mode and the pc of the return do not touch. -/
structure TrapLeft (s t : State) : Prop where
  mie : t.csr.mstatus.mie = s.csr.mstatus.mpie
  nest : t.nest = s.nest.tail
  popped :
    s.hpeEnabled = true → ∀ e rest frame, s.nest = e :: rest → s.hpe[s.level - 1]? = some frame →
      (∀ k : Fin 16, t.reg hpeRegs[k] = frame[k]) ∧ ∀ j, (∀ k : Fin 16, hpeRegs[k] ≠ j) → t.reg j = s.reg j
  kept : s.hpeEnabled = false ∨ s.nest = [] → ∀ j, t.reg j = s.reg j
  single :
    s.level ≤ 1 →
      t.csr.mepc = s.csr.mepc ∧ t.csr.mcause = s.csr.mcause ∧ t.csr.mtval = s.csr.mtval ∧
        (t.csr.mstatus.mpie = s.csr.mstatus.mpie ∨ t.csr.mstatus.mpie = true) ∧
          (t.csr.mstatus.mpp = s.csr.mstatus.mpp ∨ t.csr.mstatus.mpp = .user)
  outer :
    ∀ e rest, s.nest = e :: rest → rest ≠ [] →
      (t.csr.mepc = s.csr.mepc ∨ t.csr.mepc = e.outer.mepc) ∧ (t.csr.mcause = s.csr.mcause ∨ t.csr.mcause = e.outer.mcause) ∧
        (t.csr.mtval = s.csr.mtval ∨ t.csr.mtval = e.outer.mtval) ∧
          (t.csr.mstatus.mpie = s.csr.mstatus.mpie ∨ t.csr.mstatus.mpie = true ∨ t.csr.mstatus.mpie = e.outer.mpie) ∧
            (t.csr.mstatus.mpp = s.csr.mstatus.mpp ∨ t.csr.mstatus.mpp = .user ∨ t.csr.mstatus.mpp = e.outer.mpp)
  rest :
    t =
      { s with
        regs := t.regs
        csr := { s.csr with mstatus := t.csr.mstatus, mepc := t.csr.mepc, mcause := t.csr.mcause, mtval := t.csr.mtval }
        nest := t.nest
        draws := t.draws }

/-- The last part of a return, after the innermost trap is left. -/
def State.returned (s t : State) : State :=
  { t with
    priv := s.csr.mstatus.mpp
    pc := s.csr.mepc
    reservation := none
    csr := { t.csr with intsyscr := { t.csr.intsyscr with
      gihwstknen := if t.isV3A then t.csr.intsyscr.gihwstknen else false } }
    sleep := if s.level = 1 ∧ t.pfic.sleeponexit = true ∧ t.debugMode = false then some .wfi else t.sleep }

theorem State.clearGihwstknen_eq (t : State) :
    t.clearGihwstknen = { t with csr := { t.csr with intsyscr := { t.csr.intsyscr with
      gihwstknen := if t.isV3A then t.csr.intsyscr.gihwstknen else false } } } := by
  unfold State.clearGihwstknen
  split <;> rfl

theorem State.sleepOnExit_sleep (t : State) (n : Nat) :
    t.sleepOnExit n = { t with
      sleep := if n = 1 ∧ t.pfic.sleeponexit = true ∧ t.debugMode = false then some .wfi else t.sleep } := by
  unfold State.sleepOnExit
  simp only [Bool.not_eq_true]
  split <;> rfl

theorem State.trapReturn_ok {t : State} (hq : s.deviceQueue = []) (he : s.csr.mepc.getLsbD 0 = false) (hl : s.level ≠ 3)
    (ht : s.returnCsrs.leaveTrap = .ok t) : s.trapReturn = .next (s.returned t) := by
  have he' : s.csr.mepc[0] = false := he
  simp [State.trapReturn, State.drainAll_nil hq, he', hl, ht, State.clearGihwstknen_eq, State.sleepOnExit_sleep, State.returned,
    State.clearReservation]

theorem TrapLeft.returned {t : State} (h : TrapLeft s t) : TrapReturned s (s.returned t) := by
  have hrest := h.rest
  refine
    { pc := rfl, priv := rfl, mie := h.mie, nest := h.nest, popped := h.popped, kept := h.kept, single := h.single
      outer := h.outer, gate := ?gate, sleep := ?sleep, reservation := rfl, memory := fun b => ?memory, rest := ?rest }
  case gate => unfold State.returned; rw [hrest]; rfl
  case sleep => unfold State.returned; rw [hrest]
  case memory => exact State.byteAt_congr (by unfold State.returned; rw [hrest]) b
  case rest => unfold State.returned; rw [hrest]

/-- Both choices of a free bit satisfy what each of the two values does. -/
theorem freeBool_cases {α : Type} (d : Nat) (x y : α) :
    (if Config.freeBool d then x else y) = x ∨ (if Config.freeBool d then x else y) = y := by
  split
  · exact .inl rfl
  · exact .inr rfl

theorem State.leaveTrap_outermost (h : s.nest = []) : s.returnCsrs.leaveTrap = .ok s.returnCsrs := by
  have h' : s.returnCsrs.nest = [] := h
  rw [State.leaveTrap, h']

theorem State.leaveTrap_refused {e : NestEntry} {rest : List NestEntry} (h : s.nest = e :: rest) (hh : s.hpeEnabled = true)
    (hf : e.stacked = false) : s.returnCsrs.leaveTrap = .error .unstackWithoutFrame := by
  have h' : s.returnCsrs.nest = e :: rest := h
  have hh' : s.returnCsrs.hpeEnabled = true := hh
  simp [State.leaveTrap, h', hh', hf]

/-- The registers an inner return leaves: the frame's, if stacking is on. -/
def State.unstacked (s : State) : State :=
  if s.hpeEnabled then s.returnCsrs.hpePop s.level else s.returnCsrs

theorem State.leaveTrap_inner {e : NestEntry} {rest : List NestEntry} (h : s.nest = e :: rest)
    (hf : s.hpeEnabled = true → e.stacked = true) :
    s.returnCsrs.leaveTrap =
      .ok (if rest.isEmpty then { s.unstacked with nest := rest } else State.blurOuter { s.unstacked with nest := rest } e.outer) := by
  have h' : s.returnCsrs.nest = e :: rest := h
  have hlevel : s.returnCsrs.level = s.level := rfl
  rw [State.leaveTrap, h']
  cases hh : s.hpeEnabled with
  | false =>
    have hh' : s.returnCsrs.hpeEnabled = false := hh
    simp [hh', State.unstacked, hh]
  | true =>
    have hh' : s.returnCsrs.hpeEnabled = true := hh
    simp [hh', State.unstacked, hh, hf hh, hlevel]

theorem State.unstacked_rest (s : State) : s.unstacked = { s.returnCsrs with regs := s.unstacked.regs } := by
  unfold State.unstacked
  split
  · exact s.returnCsrs.hpePop_only s.level
  · rfl

theorem State.unstacked_popped (hh : s.hpeEnabled = true) {frame : Vector Word 16} (hf : s.hpe[s.level - 1]? = some frame) :
    (∀ k : Fin 16, s.unstacked.reg hpeRegs[k] = frame[k]) ∧ ∀ j, (∀ k : Fin 16, hpeRegs[k] ≠ j) → s.unstacked.reg j = s.reg j := by
  obtain ⟨hlt, rfl⟩ := Vector.getElem?_eq_some_iff.mp hf
  rw [State.unstacked, if_pos hh]
  exact ⟨State.hpePop_reg_saved hlt, fun j hj => (State.hpePop_reg_other hj).trans rfl⟩

theorem State.unstacked_kept (hh : s.hpeEnabled = false) : s.unstacked = s.returnCsrs := by
  rw [State.unstacked, hh]
  rfl

theorem TrapLeft.outermost (h : s.nest = []) : TrapLeft s s.returnCsrs where
  mie := rfl
  nest := by rw [h]; exact h
  popped := fun _ e rest _ hn => absurd (hn.symm.trans h) (List.cons_ne_nil _ _)
  kept := fun _ _ => rfl
  single := fun _ => ⟨rfl, rfl, rfl, freeBool_cases .., freeBool_cases ..⟩
  outer := fun e rest hn => absurd (hn.symm.trans h) (List.cons_ne_nil _ _)
  rest := rfl

theorem TrapLeft.single_level {e : NestEntry} (h : s.nest = [e]) : TrapLeft s { s.unstacked with nest := [] } := by
  have hrest := s.unstacked_rest
  have hcsr : s.unstacked.csr = s.returnCsrs.csr := by rw [hrest]
  refine
    { mie := congrArg (·.mstatus.mie) hcsr, nest := by rw [h]; rfl
      popped := fun hh _ _ _ _ hf => State.unstacked_popped hh hf
      kept := fun hk j => ?kept
      single := fun _ => ⟨congrArg (·.mepc) hcsr, congrArg (·.mcause) hcsr, congrArg (·.mtval) hcsr, ?mpie, ?mpp⟩
      outer := fun _ rest hn hne => ?outer, rest := ?rest }
  case kept =>
    obtain hk | hk := hk
    · exact congrArg (·.reg j) (State.unstacked_kept hk)
    · exact absurd (h.symm.trans hk) (List.cons_ne_nil _ _)
  case mpie => rw [show _ = s.returnCsrs.csr from hcsr]; exact freeBool_cases ..
  case mpp => rw [show _ = s.returnCsrs.csr from hcsr]; exact freeBool_cases ..
  case outer => exact absurd (List.cons.inj (h.symm.trans hn)).2.symm hne
  case rest => rw [hrest]; rfl

theorem TrapLeft.nested {e : NestEntry} {rest : List NestEntry} (h : s.nest = e :: rest) (hne : rest ≠ []) :
    TrapLeft s (State.blurOuter { s.unstacked with nest := rest } e.outer) := by
  have hrest := s.unstacked_rest
  have hcsr : s.unstacked.csr = s.returnCsrs.csr := by rw [hrest]
  have hlevel : 1 < s.level := by
    rw [State.level, h, List.length_cons]
    exact Nat.succ_lt_succ (List.length_pos_iff.mpr hne)
  refine
    { mie := congrArg (·.mstatus.mie) hcsr, nest := by rw [h]; rfl
      popped := fun hh _ _ _ _ hf => State.unstacked_popped hh hf
      kept := fun hk j => ?kept
      single := fun hl => absurd hl (Nat.not_le.mpr hlevel)
      outer := fun o rest' hn _ => ?outer, rest := ?rest }
  case kept =>
    obtain hk | hk := hk
    · exact congrArg (·.reg j) (State.unstacked_kept hk)
    · exact absurd (h.symm.trans hk) (List.cons_ne_nil _ _)
  case outer =>
    obtain rfl := (List.cons.inj (h.symm.trans hn)).1
    unfold State.blurOuter
    dsimp only
    rw [hcsr]
    refine ⟨(freeBool_cases ..).symm, (freeBool_cases ..).symm, (freeBool_cases ..).symm, ?_, ?_⟩
    · rcases freeBool_cases (s.unstacked.draws + 3) e.outer.mpie s.returnCsrs.csr.mstatus.mpie with hx | hx <;> rw [hx]
      · exact .inr (.inr rfl)
      · exact (freeBool_cases ..).imp_right .inl
    · rcases freeBool_cases (s.unstacked.draws + 4) e.outer.mpp s.returnCsrs.csr.mstatus.mpp with hx | hx <;> rw [hx]
      · exact .inr (.inr rfl)
      · exact (freeBool_cases ..).imp_right .inl
  case rest =>
    unfold State.blurOuter
    rw [hrest]
    rfl

/-- A return that is not refused: from a level the stack reaches, with a frame where one is wanted. -/
theorem State.trapReturn_returned (hq : s.deviceQueue = []) (he : s.csr.mepc.getLsbD 0 = false) (hl : s.level ≤ 2)
    (hf : s.hpeEnabled = true → ∀ e rest, s.nest = e :: rest → e.stacked = true) :
    ∃ t, s.trapReturn = .next t ∧ TrapReturned s t := by
  have hl3 : s.level ≠ 3 := by omega
  cases hn : s.nest with
  | nil => exact ⟨_, State.trapReturn_ok hq he hl3 (State.leaveTrap_outermost hn), (TrapLeft.outermost hn).returned⟩
  | cons e rest =>
    have hleave := State.leaveTrap_inner hn fun hh => hf hh e rest hn
    cases rest with
    | nil => exact ⟨_, State.trapReturn_ok hq he hl3 hleave, (TrapLeft.single_level hn).returned⟩
    | cons o more => exact ⟨_, State.trapReturn_ok hq he hl3 hleave, (TrapLeft.nested hn (List.cons_ne_nil _ _)).returned⟩

theorem State.trapReturn_oddMepc (hq : s.deviceQueue = []) (he : s.csr.mepc.getLsbD 0 = true) :
    s.trapReturn = .refused .oddMepc := by
  rw [State.trapReturn, State.drainAll_nil hq]
  exact if_pos he

theorem State.trapReturn_overflow (hq : s.deviceQueue = []) (he : s.csr.mepc.getLsbD 0 = false) (hl : s.level = 3) :
    s.trapReturn = .refused .mretFromOverflow := by
  rw [State.trapReturn, State.drainAll_nil hq]
  exact (if_neg (he ▸ Bool.false_ne_true)).trans (if_pos hl)

theorem State.trapReturn_noFrame (hq : s.deviceQueue = []) (he : s.csr.mepc.getLsbD 0 = false) (hl : s.level ≠ 3)
    (ht : s.returnCsrs.leaveTrap = .error .unstackWithoutFrame) : s.trapReturn = .refused .unstackWithoutFrame := by
  have he' : s.csr.mepc[0] = false := he
  simp [State.trapReturn, State.drainAll_nil hq, he', hl, ht]

theorem exec_mret_machine (h : s.priv = .machine) : exec .mret s = s.trapReturn := (exec_mret s).trans (if_pos h)

end

/-- Settles O48. -/
theorem trapReturn : Obligations.TrapReturn := by
  intro s target
  refine ⟨decode_full (by decide) rfl rfl, fun hu h => ?user, fun hm hq => ?machine⟩
  case user =>
    have he : exec .mret s = s.raise .illegal 0x30200073#32 :=
      (exec_mret s).trans (if_neg (by rw [hu]; decide))
    rw [he]
    exact h.raise_taken (e := .illegal) (by decide) _
  case machine =>
    rw [exec_mret_machine hm]
    refine ⟨State.trapReturn_oddMepc hq, fun he => ⟨State.trapReturn_overflow hq he, fun hl hh hf => ?_, State.trapReturn_returned hq he⟩⟩
    obtain ⟨e, rest, hn, hs⟩ := hf
    exact State.trapReturn_noFrame hq he (by omega) (State.leaveTrap_refused hn hh hs)

/-! ### The round trip -/

theorem exec_ecall_taken {s : State} {target : Word} (h : ExceptionReady s (if s.priv = .user then 8#32 else 11#32) target) :
    TakesException s (exec .ecall s) (if s.priv = .user then 8#32 else 11#32) 0#32 target := (environmentCall s target).2 h

theorem mem_hpeRegs_iff (j : Reg) :
    j ∈ [1#5, 5#5, 6#5, 7#5, 10#5, 11#5, 12#5, 13#5, 14#5, 15#5, 16#5, 17#5, 28#5, 29#5, 30#5, 31#5] ↔ ∃ k : Fin 16, hpeRegs[k] = j := by
  revert j
  decide

/-- Settles O49: the handler's state keeps the frame that the entry pushed, and the return pops it. -/
theorem hardwareStackRoundTrip : Obligations.HardwareStackRoundTrip := by
  intro s t h target saved hh hready hexec hkept he
  obtain ⟨t', ht', htaken⟩ := exec_ecall_taken hready
  obtain rfl : t' = t := Host.Outcome.next.inj (ht'.symm.trans hexec)
  have hroom := hready.1.room
  have hq : h.deviceQueue = [] := by
    rw [hkept, htaken.rest]
    exact hready.1.drained
  have hpriv : h.priv = .machine := by rw [hkept]; exact htaken.priv
  have hnest : h.nest = ⟨3#8, s.hpeEnabled, s.trapCsrs⟩ :: s.nest := by rw [hkept]; exact htaken.nest
  have hlevel : h.level = s.level + 1 := by rw [State.level, hnest]; rfl
  have hpe : h.hpeEnabled = true := by
    have hcfg : h.cfg = s.cfg := by rw [hkept, htaken.rest]
    have hpfic : h.pfic = s.pfic := by rw [hkept]; exact (htaken.exception rfl).1
    have hint : h.csr.intsyscr = s.csr.intsyscr := by rw [hkept, htaken.rest]
    rw [← hh]
    unfold State.hpeEnabled State.isV3A
    rw [hcfg, hpfic, hint]
  have hframe : h.hpe[h.level - 1]? = some s.hpeFrame := by
    rw [hlevel, hkept]
    show t'.hpe[s.level]? = _
    rw [htaken.frame, if_pos hh]
    simp [hroom]
  obtain ⟨u, hu, hret⟩ := State.trapReturn_returned hq he (by omega) fun _ e rest hn => by
    rw [hnest] at hn
    rw [← (List.cons.inj hn).1]
    exact hh
  obtain ⟨hpop, hother⟩ := hret.popped hpe _ _ _ hnest hframe
  refine ⟨u, (exec_mret_machine hpriv).trans hu, fun j hj => ?saved, fun j hj => ?others, hret.pc, ?priv, ?mie, ?nest⟩
  case saved =>
    obtain ⟨k, rfl⟩ := (mem_hpeRegs_iff j).mp hj
    exact (hpop k).trans (Vector.getElem_ofFn ..)
  case others => exact hother j fun k hk => hj ((mem_hpeRegs_iff j).mpr ⟨k, hk⟩)
  case priv => rw [hret.priv, hkept]; exact htaken.mpp
  case mie => rw [hret.mie, hkept]; exact htaken.mpie
  case nest => rw [hret.nest, hnest]; rfl

/-! ### The overflow state -/

section
variable {s : State} {t : TrapReq} {target : Word}

theorem State.trapEntry_thirdLevel (hq : s.deviceQueue = []) (hl : s.level = 2) (hv : s.isV3A = true) :
    s.trapEntry t = .refused .thirdLevelOnV3A := by
  simp [State.trapEntry, State.drainAll_nil hq, State.overflow, hl, hv]

theorem State.trapEntry_inOverflow (hq : s.deviceQueue = []) (hl : s.level = 3) (hv : s.isV3A = false) :
    s.trapEntry t = .refused .trapInOverflow := by
  simp [State.trapEntry, State.drainAll_nil hq, State.overflow, hl, hv]

/-- Level 3 keeps no frame. -/
theorem State.enterTrap_thirdLevel (s : State) (t : TrapReq) (hl : s.level = 2) :
    s.enterTrap t =
      { s with
        csr := (s.enterTrap t).csr
        priv := .machine
        nest := ⟨t.actidx, false, s.trapCsrs⟩ :: s.nest
        pfic := (if t.interrupt then s.pendOnEntry t.vec else s).pfic
        eventPending := (if t.interrupt then s.pendOnEntry t.vec else s).eventPending
        reservation := none
        pmpBefore := none } := by
  have hstacked : (s.hpeEnabled && decide (s.level + 1 ≤ 2)) = false := by simp [hl]
  have hent : s.enterCsrs t (s.level + 1) = { s with csr := (s.enterCsrs t (s.level + 1)).csr, priv := .machine } := rfl
  unfold State.enterTrap
  dsimp only
  rw [hstacked, if_neg Bool.false_ne_true, hent]
  generalize (s.enterCsrs t (s.level + 1)).csr = c
  cases t.interrupt with
  | true =>
    have hframe := s.pendOnEntry_frame t.vec c .machine (⟨t.actidx, false, s.trapCsrs⟩ :: s.nest) s.hpe
    have honly := s.pendOnEntry_only t.vec
    simp only [if_true]
    rw [hframe, honly]
    rfl
  | false => rfl

/-- NEST_OV is set as level 3 is entered. -/
def State.nestOverflowed (s : State) : State :=
  { s with csr := { s.csr with inestcr := { s.csr.inestcr with nestOv := true } } }

theorem State.trapEntry_overflow (hq : s.deviceQueue = []) (hl : s.level = 2) (hv : s.isV3A = false)
    (ht : (s.nestOverflowed.enterTrap t).trapTarget t = .ok (target, s.nestOverflowed.enterTrap t)) :
    s.trapEntry t = .next ((s.nestOverflowed.enterTrap t).setPc target) := by
  have ho : s.drainAll.overflow (s.level + 1) = .ok s.nestOverflowed := by
    rw [State.drainAll_nil hq]
    simp [State.overflow, hl, hv, State.nestOverflowed]
  simp [State.trapEntry, ho, ht]

theorem Inestcr.word_overflow (i : Inestcr) : (i.word 3).getLsbD 30 = i.nestOv := by
  have hi : 30 < 32 := by decide
  simp only [Inestcr.word, BitVec.getLsbD_or, getLsbD_flagAt _ _ _ hi]
  simp [nestStatus]

theorem Inestcr.word_status (i : Inestcr) : (i.word 3).extractLsb' 8 4 = 7#4 := by
  refine BitVec.eq_of_getLsbD_eq fun j hj => ?_
  have hi : 8 + j < 32 := by omega
  simp only [BitVec.getLsbD_extractLsb', hj, Inestcr.word, BitVec.getLsbD_or, getLsbD_flagAt _ _ _ hi]
  interval_cases j <;> simp [nestStatus]

/-- The entry of the overflow state, whole. -/
theorem State.trapEntry_overflowed (hq : s.deviceQueue = []) (hl : s.level = 2) (hv : s.isV3A = false)
    (hvtf : s.vtfMatches t.vec = []) (htarget : TargetIs s t.vec target) (hepc : t.epc = s.pc) :
    ∃ u, s.trapEntry t = .next u ∧ Overflowed s u t.cause t.actidx t.info target := by
  have he := s.nestOverflowed.enterTrap_thirdLevel t hl
  have hcsr := s.nestOverflowed.enterTrap_csr t
  have hpfic : (s.nestOverflowed.enterTrap t).pfic = { s.pfic with pend := (s.nestOverflowed.enterTrap t).pfic.pend } := by
    rw [he]
    dsimp only
    split
    case isTrue => rw [s.nestOverflowed.pendOnEntry_only t.vec]; rfl
    case isFalse => rfl
  have htab : (s.nestOverflowed.enterTrap t).trapTarget t = .ok (target, s.nestOverflowed.enterTrap t) := by
    have hnone : (s.nestOverflowed.enterTrap t).vtfMatches t.vec = [] :=
      (State.vtfMatches_congr (s := s) (by rw [he]; rfl) (by rw [hpfic]) (by rw [hpfic]) t.vec).trans hvtf
    rw [State.trapTarget, hnone]
    exact State.tableTarget_eq htarget (by rw [he]) (by rw [hcsr]; rfl) (by rw [he]; rfl) (by rw [he]; rfl) (by rw [he]; rfl)
  refine ⟨_, State.trapEntry_overflow hq hl hv htab, ?_⟩
  generalize hE : s.nestOverflowed.enterTrap t = e at *
  have hov : e.csr.inestcr.nestOv = true := by rw [hcsr]; rfl
  have hlast : s.nestOverflowed.lastLevel ≤ s.nestOverflowed.level + 1 := by
    have hlevel : s.nestOverflowed.level = 2 := hl
    rw [hlevel]
    unfold State.lastLevel
    split <;> decide
  have hlevel : e.level = 3 := by
    rw [State.level, he]
    exact congrArg (· + 1) hl
  have hsta : e.csrRead 0xBC1#12 = e.csr.inestcr.word 3 := congrArg e.csr.inestcr.word hlevel
  exact
    { pc := rfl, mcause := by rw [State.setPc_csr, hcsr], mepc := by rw [State.setPc_csr, hcsr]; exact hepc
      mtval := by rw [State.setPc_csr, hcsr]
      priv := by rw [State.setPc_priv, he], mpp := by rw [State.setPc_csr, hcsr]; rfl
      mpie := by rw [State.setPc_csr, hcsr]; rfl, mie := by rw [State.setPc_csr, hcsr]; exact if_pos hlast
      frame := by rw [State.setPc_hpe, he]; rfl
      nest := by rw [State.setPc_nest, he]; rfl
      nestOv := (congrArg (BitVec.getLsbD · 30) hsta).trans ((Inestcr.word_overflow _).trans hov)
      nestSta := (congrArg (BitVec.extractLsb' 8 4) hsta).trans (Inestcr.word_status _)
      regs := fun j => by rw [he]; rfl
      memory := fun b => State.byteAt_congr (by rw [he]; rfl) b }

theorem State.exception_overflowed (hq : s.deviceQueue = []) (hl : s.level = 2) (hv : s.isV3A = false) (x : Exc) (info : Word)
    (hvtf : s.vtfMatches (vectorOf s.isV3A x.code) = []) (htarget : TargetIs s (vectorOf s.isV3A x.code) target) :
    ∃ u, s.trapEntry (x.req s.isV3A info s.pc) = .next u ∧ Overflowed s u x.code 3#8 info target := by
  rw [← Exc.vector_eq_vectorOf] at hvtf htarget
  have hcause : (x.req s.isV3A info s.pc).cause = x.code := by simp [TrapReq.cause, Exc.req, flagAt]
  exact hcause ▸ State.trapEntry_overflowed (t := x.req s.isV3A info s.pc) hq hl hv hvtf htarget rfl

/-- What raises an exception that is taken as a trap. -/
theorem State.raise_trapEntry (hd : s.debugMode = false) {e : Exc} (hload : e ≠ .loadAccess) (hstore : e ≠ .storeAccess)
    (hfetch : e = .instrAccess → s.isV3A = true ∨ s.csr.corecfgr.nmiIe = false) (info : Word) :
    s.raise e info = s.trapEntry (e.req s.isV3A info s.pc) := by
  by_cases he : e = .instrAccess
  · subst he
    exact State.raise_instrAccess_exception hd (hfetch rfl) info
  · exact State.raise_eq_trapEntry hd (by simp [hload, hstore, he]) info

/-- The exception of an environment call (60 R503). -/
def ecallExc (p : Priv) : Exc := if p = .user then .ecallU else .ecallM

theorem ecallExc_code (p : Priv) : (ecallExc p).code = if p = .user then 8#32 else 11#32 := by cases p <;> rfl

theorem exec_ecall_trapEntry (hd : s.debugMode = false) :
    exec .ecall s = s.trapEntry ((ecallExc s.priv).req s.isV3A 0#32 s.pc) := by
  refine (exec_ecall s).trans (State.raise_eq_trapEntry hd ?_ 0#32)
  cases s.priv <;> decide

end

/-- Settles O50. -/
theorem overflowState : Obligations.OverflowState := by
  intro s e info target hq hd code trapped
  have hecall := exec_ecall_trapEntry hd
  have hraise (h : trapped) := State.raise_trapEntry hd h.1 h.2.1 h.2.2 info
  refine ⟨fun hl hv => ?v3a, fun hl hv => ?enters, fun hl hv => ?stays, fun hl hm he => ?mret⟩
  case v3a =>
    exact ⟨hecall.trans (State.trapEntry_thirdLevel hq hl hv), fun h => (hraise h).trans (State.trapEntry_thirdLevel hq hl hv),
      State.trapEntry_thirdLevel hq hl hv⟩
  case enters =>
    refine ⟨?_, fun h => hraise h ▸ State.exception_overflowed hq hl hv e info, fun hvtf htarget => ?_⟩
    case refine_2 =>
      have hcause : (⟨true, (2#8 : IrqNum).setWidth 32, 2#8, 2#8, 0#32, s.pc⟩ : TrapReq).cause = 0x80000002#32 := by
        simp [TrapReq.cause, flagAt]
      rw [← hcause]
      exact State.trapEntry_overflowed (t := ⟨true, (2#8 : IrqNum).setWidth 32, 2#8, 2#8, 0#32, s.pc⟩) hq hl hv hvtf htarget rfl
    rw [hecall, show code = (ecallExc s.priv).code from (ecallExc_code s.priv).symm]
    exact State.exception_overflowed hq hl hv _ _
  case stays =>
    exact ⟨hecall.trans (State.trapEntry_inOverflow hq hl hv), fun h => (hraise h).trans (State.trapEntry_inOverflow hq hl hv)⟩
  case mret => exact (exec_mret_machine hm).trans (State.trapReturn_overflow hq he hl)

end Sys2Proof.Machine
end

section
/-! PROOFS. The core's device registers as loads and stores of words reach them (20 R112, R114, R122, R124): which address names
which register, what a load of it gives, what a store of it queues. -/

namespace Sys2Proof.Machine
open Sys2Proof

/-! ### Addresses of the PFIC and SysTick blocks -/

/-- The address lies in the PFIC or the SysTick block (20 R114). -/
def InBlocks (a : Word) : Prop := a.extractLsb' 13 19 = 0x70007#19

theorem inBlocks_iff (a : Word) : InBlocks a ↔ 0xE000E000 ≤ a.toNat ∧ a.toNat < 0xE0010000 := by
  unfold InBlocks
  rw [← BitVec.toNat_inj, BitVec.extractLsb'_toNat, Nat.shiftRight_eq_div_pow]
  have := a.isLt
  simp only [BitVec.toNat_ofNat]
  omega

/-- The debug data words lie below the blocks. -/
theorem InBlocks.not_data {a : Word} (h : InBlocks a) (c : Config) : a - Config.dataBase c ≠ 0#32 ∧ a - Config.dataBase c ≠ 4#32 := by
  rw [inBlocks_iff] at h
  have hbase : (Config.dataBase c).toNat < 0xE0001000 := by
    have := c.dataAddr.isLt
    simp only [Config.dataBase, BitVec.toNat_add, BitVec.toNat_setWidth, BitVec.toNat_ofNat]
    omega
  constructor <;> (intro he; have := congrArg BitVec.toNat he; simp only [BitVec.toNat_sub, BitVec.toNat_ofNat] at this; omega)

theorem InBlocks.isCoreDevice {a : Word} (h : InBlocks a) (c : Config) : isCoreDevice c a = true := by
  simp [Sys2Proof.Machine.isCoreDevice, show a.extractLsb' 13 19 = 0x70007#19 from h]

/-- The address is that of a word register of the core, named `r` on the member. -/
structure NamesReg (c : Config) (a : Word) (r : DevReg) : Prop where
  aligned : Width.word.aligned a = true
  inBlocks : InBlocks a
  named : devRegAt c a = some r

theorem InBlocks.next {a : Word} (h : InBlocks a) (hal : Width.word.aligned a = true) :
    ∀ b ∈ Width.word.addrs a, InBlocks b := by
  have hlow : a.toNat % 4 = 0 := by
    have := congrArg BitVec.toNat (beq_iff_eq.mp hal)
    simpa [BitVec.extractLsb'_toNat] using this
  have hlt := a.isLt
  intro b hb
  rw [inBlocks_iff] at h ⊢
  simp only [Width.addrs, List.mem_cons, List.not_mem_nil, or_false] at hb
  rcases hb with rfl | rfl | rfl | rfl
  · exact h
  all_goals
    simp only [BitVec.toNat_add, BitVec.toNat_ofNat]
    omega

theorem State.targetAt_inBlocks {s : State} {a : Word} (h : InBlocks a) : s.targetAt a = .device := if_pos (h.isCoreDevice s.cfg)

theorem NamesReg.target {s : State} {a : Word} {r : DevReg} (h : NamesReg s.cfg a r) : s.target (Width.word.addrs a) = .device := by
  have hall := h.inBlocks.next h.aligned
  have ht : ∀ b ∈ Width.word.addrs a, s.targetAt b = .device := fun b hb => State.targetAt_inBlocks (hall b hb)
  simp only [Width.addrs, List.forall_mem_cons] at ht
  obtain ⟨h0, h1, h2, h3, -⟩ := ht
  simp [Width.addrs, State.target, h0, h1, h2, h3]

theorem NamesReg.wordAddr {c : Config} {a : Word} {r : DevReg} (h : NamesReg c a r) : devRegAt c (wordAddr a) = some r :=
  (congrArg (devRegAt c) (wordAddr_of_aligned h.aligned)).trans h.named

theorem lane_of_aligned {a : Word} (h : Width.word.aligned a = true) : lane a = 0 :=
  congrArg BitVec.toNat (beq_iff_eq.mp h)

/-! ### Loads and stores of a register -/

section
variable {s : State} {a v n : Word} {r : DevReg} {rd : Reg}

theorem NamesReg.load (h : NamesReg s.cfg a r) (hp : s.pmpOk .load (Width.word.addrs a) = true)
    (hdraw : s.drainAll.devReadDraws r = false) : s.load a .word = .ok (s.drainAll.devWord r, s.drainAll) := by
  have hread : r.readWidth .word = true := rfl
  rw [State.load_aligned h.aligned]
  simp [State.loadAligned, hp, h.target, State.devLoad, h.wordAddr, hread, hdraw, lane_of_aligned h.aligned, Width.cut]

theorem NamesReg.loadTo (h : NamesReg s.cfg a r) (hp : s.pmpOk .load (Width.word.addrs a) = true)
    (ht : s.triggered .load a = .pass) (hdraw : s.drainAll.devReadDraws r = false) :
    s.loadTo rd a .word id n = s.drainAll.writeBack rd (s.drainAll.devWord r) n := by
  simp [State.loadTo, ht, h.load hp hdraw]

/-- A word store that is accepted waits in the queue. -/
theorem NamesReg.storeFrom (h : NamesReg s.cfg a r) (hready : DeviceReady s .store a .word)
    (hw : r.writeWidth s.isV3A .word = true) (href : s.writeRefusal r v = none) (hres : r.resets s.isV3A .word v = false) :
    s.storeFrom a .word v n = .next (State.advance { s with deviceQueue := [⟨a, .word, v⟩] } n) := by
  have hstore : s.store a .word v = .ok { s with deviceQueue := [⟨a, .word, v⟩] } := by
    rw [State.store_aligned h.aligned]
    simp [State.storeAligned, hready.allowed, h.target, State.devStore, h.wordAddr, hw, href, hres, hready.drained, Width.cut]
  simp [State.storeFrom, hready.quiet, hstore]

theorem NamesReg.storeFrom_refused {e : Refusal} (h : NamesReg s.cfg a r) (hready : DeviceReady s .store a .word)
    (hw : r.writeWidth s.isV3A .word = true) (href : s.writeRefusal r v = some e) : s.storeFrom a .word v n = .refused e := by
  have hstore : s.store a .word v = .error (.refused e) := by
    rw [State.store_aligned h.aligned]
    simp [State.storeAligned, hready.allowed, h.target, State.devStore, h.wordAddr, hw, href]
  rw [State.storeFrom_stop hready.quiet hstore]
  rfl

theorem NamesReg.storeFrom_resets (h : NamesReg s.cfg a r) (hready : DeviceReady s .store a .word)
    (hw : r.writeWidth s.isV3A .word = true) (href : s.writeRefusal r v = none) (hres : r.resets s.isV3A .word v = true) :
    s.storeFrom a .word v n = .next s.systemReset.leaveReset := by
  have hstore : s.store a .word v = .error (.restart s.systemReset.leaveReset) := by
    rw [State.store_aligned h.aligned]
    simp [State.storeAligned, hready.allowed, h.target, State.devStore, h.wordAddr, hw, href, hres, State.drainAll_nil hready.drained]
  rw [State.storeFrom_stop hready.quiet hstore]
  rfl

/-- The queued word takes effect. -/
theorem NamesReg.drainAll (h : NamesReg s.cfg a r) (hq : s.deviceQueue = []) (pc : Word) :
    State.drainAll { s with deviceQueue := [⟨a, .word, v⟩], pc := pc } = State.devEffect { s with pc := pc } r .word 0 v := by
  have he : ({ s with pc := pc, deviceQueue := [] } : State) = { s with pc := pc } := by rw [← hq]
  have happly : State.applyDev { s with pc := pc } ⟨a, .word, v⟩ = State.devEffect { s with pc := pc } r .word 0 v := by
    simp [State.applyDev, h.wordAddr, lane_of_aligned h.aligned]
  exact (congrArg (State.applyDev · ⟨a, .word, v⟩) he).trans happly

end

/-! ### The register map -/

/-- The blocks are laid out by the member alone. -/
theorem devRegAt_variant {c : Config} {a : Word} (h : InBlocks a) :
    devRegAt c a = devRegAt { Config.default with variant := c.variant } a := by
  obtain ⟨h0, h4⟩ := h.not_data c
  obtain ⟨h0', h4'⟩ := h.not_data { Config.default with variant := c.variant }
  unfold devRegAt
  dsimp only
  rw [if_neg h0, if_neg h4, if_neg h0', if_neg h4']

theorem namesReg_of_variant {c : Config} {a : Word} {r : DevReg} (hal : a.extractLsb' 0 2 = 0#2)
    (hin : a.extractLsb' 13 19 = 0x70007#19) (h : devRegAt { Config.default with variant := c.variant } a = some r) :
    NamesReg c a r := ⟨beq_iff_eq.mpr hal, hin, (devRegAt_variant hin).trans h⟩

section
variable (c : Config) (x : BitVec 3)

theorem namesReg_isr : NamesReg c (0xE000E000#32 + 4#32 * x.setWidth 32) (.isr x) :=
  namesReg_of_variant (by revert x; decide) (by revert x; decide) (by cases c.variant <;> revert x <;> decide)

theorem namesReg_ipr : NamesReg c (0xE000E020#32 + 4#32 * x.setWidth 32) (.ipr x) :=
  namesReg_of_variant (by revert x; decide) (by revert x; decide) (by cases c.variant <;> revert x <;> decide)

theorem namesReg_iactr : NamesReg c (0xE000E300#32 + 4#32 * x.setWidth 32) (.iactr x) :=
  namesReg_of_variant (by revert x; decide) (by revert x; decide) (by cases c.variant <;> revert x <;> decide)

theorem namesReg_ienr : NamesReg c (0xE000E100#32 + 4#32 * x.setWidth 32) (.ienr x) :=
  namesReg_of_variant (by revert x; decide) (by revert x; decide) (by cases c.variant <;> revert x <;> decide)

theorem namesReg_irer : NamesReg c (0xE000E180#32 + 4#32 * x.setWidth 32) (.irer x) :=
  namesReg_of_variant (by revert x; decide) (by revert x; decide) (by cases c.variant <;> revert x <;> decide)

theorem namesReg_ipsr : NamesReg c (0xE000E200#32 + 4#32 * x.setWidth 32) (.ipsr x) :=
  namesReg_of_variant (by revert x; decide) (by revert x; decide) (by cases c.variant <;> revert x <;> decide)

theorem namesReg_iprr : NamesReg c (0xE000E280#32 + 4#32 * x.setWidth 32) (.iprr x) :=
  namesReg_of_variant (by revert x; decide) (by revert x; decide) (by cases c.variant <;> revert x <;> decide)

theorem namesReg_vtfaddrr (i : BitVec 2) : NamesReg c (0xE000E060#32 + 4#32 * i.setWidth 32) (.vtfaddrr i) :=
  namesReg_of_variant (by revert i; decide) (by revert i; decide) (by cases c.variant <;> revert i <;> decide)

theorem namesReg_iprior (k : BitVec 6) : NamesReg c (0xE000E400#32 + 4#32 * k.setWidth 32) (.iprior k) :=
  namesReg_of_variant (by revert k; decide) (by revert k; decide) (by cases c.variant <;> revert k <;> decide)

theorem namesReg_ithresdr : NamesReg c 0xE000E040#32 .ithresdr :=
  namesReg_of_variant (by decide) (by decide) (by cases c.variant <;> decide)

theorem namesReg_sctlr : NamesReg c 0xE000ED10#32 .sctlr :=
  namesReg_of_variant (by decide) (by decide) (by cases c.variant <;> decide)

theorem namesReg_stkCtlr : NamesReg c 0xE000F000#32 .stkCtlr :=
  namesReg_of_variant (by decide) (by decide) (by cases c.variant <;> decide)

end

section
variable {c : Config}

theorem namesReg_vtfbaddrr (h : c.variant.isV3A = true) : NamesReg c 0xE000E044#32 .vtfbaddrr :=
  namesReg_of_variant (by decide) (by decide) (by revert h; cases c.variant <;> decide)

theorem namesReg_cfgr (h : c.variant.isV3A = true) : NamesReg c 0xE000E048#32 .cfgr :=
  namesReg_of_variant (by decide) (by decide) (by revert h; cases c.variant <;> decide)

theorem namesReg_vtfidr (h : c.variant.isV3A = false) : NamesReg c 0xE000E050#32 .vtfidr :=
  namesReg_of_variant (by decide) (by decide) (by revert h; cases c.variant <;> decide)

theorem namesReg_stkCntl (h : c.variant.isV3A = false) : NamesReg c 0xE000F008#32 .stkCntl :=
  namesReg_of_variant (by decide) (by decide) (by revert h; cases c.variant <;> decide)

theorem namesReg_stkCmplr (h : c.variant.isV3A = false) : NamesReg c 0xE000F010#32 .stkCmplr :=
  namesReg_of_variant (by decide) (by decide) (by revert h; cases c.variant <;> decide)

end

end Sys2Proof.Machine
end

section
/-! PROOFS. The system reset by software (70 R651). -/

namespace Sys2Proof.Machine
open Sys2Proof

theorem Memory.get_filter (m : List Host.Cell) (p : Nat → Bool) (a : Nat) :
    Memory.get (m.filter fun c => p c.1) a = if p a then Memory.get m a else none := by
  induction m with
  | nil => simp [Memory.get]
  | cons c rest ih =>
    obtain ⟨k, b⟩ := c
    by_cases hk : p k = true
    · by_cases ha : k = a
      · simp [hk, Memory.get, ← ha]
      · simp [hk, Memory.get, ha, ih]
    · by_cases ha : k = a
      · rw [← ha] at ih ⊢
        simp [hk, ih]
      · simp [hk, Memory.get, ha, ih]

section
variable (s : State)

/-- RAM holds nothing after a reset, ROM what it held (92 D55). -/
theorem State.systemReset_byteAt (b : Word) :
    s.systemReset.byteAt b = if s.regionOf b = some .rom then s.byteAt b else none := by
  refine (Memory.get_filter s.mem (fun k => regionAt s.cfg.memmap k == some .rom) b.toNat).trans ?_
  simp only [beq_iff_eq]
  rfl

theorem State.systemReset_core : CoreIsReset s.systemReset where
  priv := rfl
  csr := rfl
  pmp := fun _ => rfl
  triggers := fun k => by fin_cases k <;> rfl
  debug := rfl
  nest := rfl
  reservation := rfl
  awake := rfl
  event := rfl
  running := rfl
  outstanding := ⟨rfl, rfl, rfl, rfl⟩

theorem State.systemReset_pfic : PficIsReset s.systemReset where
  en := rfl
  pend := rfl
  prio := fun n => Vector.getElem_replicate ..
  threshold := rfl
  vtfBase := rfl
  cfgr := ⟨rfl, rfl⟩
  vtfId := fun k => Vector.getElem_replicate ..
  vtfAddr := fun k => by
    have h : s.systemReset.pfic.vtfAddr[k] = 0#32 := Vector.getElem_replicate ..
    rw [h]
    exact ⟨rfl, fun _ => rfl⟩
  sctlr := ⟨rfl, rfl, rfl, rfl⟩

theorem State.systemReset_timer : TimerIsReset s.systemReset where
  mode := rfl
  stre := rfl
  stclk := rfl
  stie := rfl
  ste := rfl
  swie := rfl
  cntif := rfl

end

/-- The word asks for a system reset at the register `r`, and is not refused (70 R651). -/
theorem asks_reset {s : State} {a v : Word}
    (h : (s.isV3A = true ∧ a = 0xE000E048#32 ∧ v.extractLsb' 16 16 = 0xBEEF#16 ∧ v.getLsbD 7 = true) ∨
      (s.isV3A = false ∧ a = 0xE000ED10#32 ∧ v.getLsbD 31 = true)) :
    ∃ r, NamesReg s.cfg a r ∧ r.writeWidth s.isV3A .word = true ∧ s.writeRefusal r v = none ∧
      r.resets s.isV3A .word v = true := by
  obtain ⟨hv, rfl, hkey, hbit⟩ | ⟨hv, rfl, hbit⟩ := h
  · refine ⟨.cfgr, namesReg_cfgr hv, by simp [DevReg.writeWidth, DevReg.isCounter], ?_, ?_⟩
    · have hbit' : v[7] = true := hbit
      simp [State.writeRefusal, State.cfgrRefusal, hkey, hbit']
    · simp only [DevReg.resets, hkey, hbit]
      rfl
  · refine ⟨.sctlr, namesReg_sctlr s.cfg, by simp [DevReg.writeWidth, DevReg.isCounter], rfl, ?_⟩
    simp only [DevReg.resets, hv, hbit]
    rfl

/-- Settles O56. -/
theorem systemReset : Obligations.SystemReset := by
  intro s rs2 rs1 imm a v hready hhalt hask
  obtain ⟨r, hnames, hwidth, hrefusal, hresets⟩ := asks_reset hask
  have hleave : s.systemReset.leaveReset = s.systemReset := if_neg (hhalt ▸ Bool.false_ne_true)
  have hexec : exec (.sw rs2 rs1 imm) s = .next s.systemReset :=
    (exec_sw ..).trans ((hnames.storeFrom_resets hready hwidth hrefusal hresets).trans (congrArg Host.Outcome.next hleave))
  exact ⟨_, hexec, rfl, s.systemReset_core, s.systemReset_pfic, s.systemReset_timer, rfl, rfl, s.systemReset_byteAt⟩

end Sys2Proof.Machine
end

section
/-! PROOFS. The interrupt controller's banks as its registers show them, and the stores that set and clear bits of them (60 R540 to
R557). -/

namespace Sys2Proof.Machine
open Sys2Proof

/-! ### One bit of a bank -/

theorem toNat_append_5 (x : BitVec 3) (k : BitVec 5) : ((x ++ k).setWidth 8).toNat = 32 * x.toNat + k.toNat := by
  revert x k
  decide

theorem getLsbD_bankWord (b : BitVec 256) (x : BitVec 3) (k : BitVec 5) :
    (bankWord b x).getLsbD k.toNat = b.getLsbD ((x ++ k).setWidth 8).toNat := by
  rw [toNat_append_5, bankWord, BitVec.getLsbD_extractLsb', decide_eq_true k.isLt, Bool.true_and]

theorem toNat_split_5 (n : IrqNum) : n.toNat = 32 * (n.extractLsb' 5 3).toNat + (n.extractLsb' 0 5).toNat := by
  revert n
  decide

theorem getLsbD_bankMask (v : Word) (x : BitVec 3) (n : IrqNum) :
    (bankMask v x).getLsbD n.toNat = true ↔ n.extractLsb' 5 3 = x ∧ v.getLsbD (n.extractLsb' 0 5).toNat = true := by
  have hn := n.isLt
  have hlow := (n.extractLsb' 0 5).isLt
  have hsplit := toNat_split_5 n
  rw [← BitVec.toNat_inj]
  simp only [bankMask, BitVec.getLsbD_shiftLeft, BitVec.getLsbD_setWidth, hn, decide_true, Bool.true_and, Bool.and_eq_true,
    Bool.not_eq_true', decide_eq_true_eq, decide_eq_false_iff_not]
  generalize (n.extractLsb' 5 3).toNat = hi at hsplit
  generalize (n.extractLsb' 0 5).toNat = lo at hsplit hlow ⊢
  constructor
  · rintro ⟨hge, -, hbit⟩
    have hlt : n.toNat - 32 * x.toNat < 32 := by
      by_contra hnot
      rw [BitVec.getLsbD_of_ge v _ (by omega)] at hbit
      exact absurd hbit Bool.false_ne_true
    have hhi : hi = x.toNat := by omega
    exact ⟨hhi, by rwa [show n.toNat - 32 * x.toNat = lo by omega] at hbit⟩
  · rintro ⟨rfl, hbit⟩
    exact ⟨by omega, by omega, by rwa [show n.toNat - 32 * x.toNat = lo by omega]⟩

/-! ### What the banks hold -/

theorem State.enables_iff (s : State) (n : IrqNum) :
    s.enables.getLsbD n.toNat = true ↔
      s.pfic.en.getLsbD n.toNat = true ∨ n ∈ (if s.isV3A then [2#8, 3#8] else [2#8, 3#8, 5#8, 8#8, 9#8]) := by
  rw [State.enables, BitVec.getLsbD_or, Bool.or_eq_true]
  refine or_congr_right ?_
  unfold State.fixedEnables
  cases s.isV3A <;> revert n <;> decide

theorem getLsbD_foldl_irqBit (l : List NestEntry) (b : BitVec 256) (n : IrqNum) :
    (l.foldl (fun acc e => acc ||| irqBit e.actidx) b).getLsbD n.toNat = true ↔
      b.getLsbD n.toNat = true ∨ ∃ e ∈ l, e.actidx = n := by
  induction l generalizing b with
  | nil => simp
  | cons e rest ih =>
    rw [List.foldl_cons, ih, BitVec.getLsbD_or, Bool.or_eq_true, getLsbD_irqBit, List.exists_mem_cons_iff, or_assoc,
      eq_comm (a := n)]

theorem State.actives_iff (s : State) (n : IrqNum) :
    s.actives.getLsbD n.toNat = true ↔ ∃ e ∈ s.nest, e.actidx = n := by
  rw [State.actives, getLsbD_foldl_irqBit]
  simp

/-! ### Priority bytes -/

theorem irqNum_of_parts (n : IrqNum) : fieldAt 8 (n.extractLsb' 2 6) 2 ||| (n.extractLsb' 0 2).setWidth 8 = n := by
  revert n
  decide

/-- The byte of an `assemble`d word at a lane. -/
theorem zext8_lane (b0 b1 b2 b3 : Byte) (j : Nat) (hj : j < 4) :
    zext8 (Width.byte.cut (assemble [b0, b1, b2, b3] >>> (8 * j))) = ([b0, b1, b2, b3][j]).setWidth 32 := by
  rw [assemble_word]
  refine BitVec.eq_of_getLsbD_eq fun i hi => ?_
  simp only [zext8, Width.cut, BitVec.getLsbD_setWidth, BitVec.getLsbD_extractLsb', BitVec.getLsbD_and, BitVec.getLsbD_ushiftRight,
    BitVec.getLsbD_append]
  interval_cases j <;> interval_cases i <;> simp

theorem State.readIprior_lane (s : State) (n : IrqNum) :
    zext8 (Width.byte.cut (s.readIprior (n.extractLsb' 2 6) >>> (8 * (n.extractLsb' 0 2).toNat))) = (s.prioOf n).setWidth 32 := by
  have hn := irqNum_of_parts n
  generalize n.extractLsb' 2 6 = k at *
  generalize n.extractLsb' 0 2 = l at *
  subst hn
  rw [State.readIprior, zext8_lane _ _ _ _ _ l.isLt]
  congr 1
  obtain rfl | rfl | rfl | rfl : l = 0#2 ∨ l = 1#2 ∨ l = 2#2 ∨ l = 3#2 := by revert l; decide
  · exact congrArg s.prioOf (BitVec.or_zero).symm
  all_goals rfl

/-! ### Loads -/

section
variable {s : State} {a : Word} {r : DevReg} {rd rs1 : Reg} {imm : BitVec 12}

theorem NamesReg.writes_lw (h : NamesReg s.cfg (s.reg rs1 + imm.signExtend 32) r)
    (hready : DeviceReady s .load (s.reg rs1 + imm.signExtend 32) .word) (hdraw : s.devReadDraws r = false) :
    Writes (.lw rd rs1 imm) s rd (s.devWord r) (s.pc + 4#32) := by
  have hq := State.drainAll_nil hready.drained
  have hload := h.loadTo (rd := rd) (n := 4#32) hready.allowed hready.quiet (hq.symm ▸ hdraw)
  rw [hq] at hload
  exact writes_of_writeBack ((exec_lw ..).trans hload)

theorem inBlocks_iprior (n : IrqNum) : (0xE000E400#32 + n.setWidth 32).extractLsb' 13 19 = 0x70007#19 := by
  revert n
  decide

theorem inBlocks_iprior_word (n : IrqNum) : (wordAddr (0xE000E400#32 + n.setWidth 32)).extractLsb' 13 19 = 0x70007#19 := by
  revert n
  decide

theorem lane_iprior (n : IrqNum) : lane (0xE000E400#32 + n.setWidth 32) = (n.extractLsb' 0 2).toNat := by
  revert n
  decide

/-- The priority bytes may be read one by one (20 R112). -/
theorem devRegAt_iprior (c : Config) (n : IrqNum) :
    devRegAt c (wordAddr (0xE000E400#32 + n.setWidth 32)) = some (.iprior (n.extractLsb' 2 6)) := by
  rw [devRegAt_variant (inBlocks_iprior_word n)]
  cases c.variant <;> revert n <;> decide

theorem writes_lbu_iprior (n : IrqNum) (ha : s.reg rs1 + imm.signExtend 32 = 0xE000E400#32 + n.setWidth 32)
    (hready : DeviceReady s .load (s.reg rs1 + imm.signExtend 32) .byte) :
    Writes (.lbu rd rs1 imm) s rd ((s.prioOf n).setWidth 32) (s.pc + 4#32) := by
  have hreg := devRegAt_iprior s.cfg n
  rw [ha] at hready
  have hq := State.drainAll_nil hready.drained
  have htarget : s.target (Width.byte.addrs (0xE000E400#32 + n.setWidth 32)) = .device := State.targetAt_inBlocks (inBlocks_iprior n)
  have hload : s.load (0xE000E400#32 + n.setWidth 32) .byte =
      .ok (Width.byte.cut (s.readIprior (n.extractLsb' 2 6) >>> (8 * (n.extractLsb' 0 2).toNat)), s) := by
    have hread : (DevReg.iprior (n.extractLsb' 2 6)).readWidth .byte = true := rfl
    have hdraw : s.devReadDraws (.iprior (n.extractLsb' 2 6)) = false := rfl
    rw [State.load_aligned rfl]
    simp only [State.loadAligned, hready.allowed, htarget, State.devLoad, hreg, hread, hq, hdraw, lane_iprior]
    rfl
  refine writes_of_writeBack ((exec_lbu ..).trans ?_)
  rw [← State.readIprior_lane]
  show s.loadTo rd (s.reg rs1 + imm.signExtend 32) .byte zext8 4#32 = _
  rw [ha]
  simp [State.loadTo, hready.quiet, hload]

end

/-- Settles O28. -/
theorem pficReads : Obligations.PficReads := by
  intro s rd rs1 imm x n a fixed bank
  refine ⟨fun ha hready => ?enables, fun ha hready => ?pending, fun ha hready => ?active, fun ha hready => writes_lbu_iprior n ha hready⟩
  case enables =>
    exact ⟨bankWord s.enables x, fun k => by rw [getLsbD_bankWord]; exact s.enables_iff _,
      NamesReg.writes_lw (ha ▸ namesReg_isr s.cfg x) hready rfl⟩
  case pending =>
    exact ⟨bankWord s.pfic.pend x, fun k => by rw [getLsbD_bankWord],
      NamesReg.writes_lw (ha ▸ namesReg_ipr s.cfg x) hready rfl⟩
  case active =>
    exact ⟨bankWord s.actives x, fun k => by rw [getLsbD_bankWord]; exact s.actives_iff _,
      NamesReg.writes_lw (ha ▸ namesReg_iactr s.cfg x) hready rfl⟩

/-! ### Stores seen after a fence -/

section
variable {s : State} {rs2 rs1 : Reg} {imm : BitVec 12} {r : DevReg}

/-- A word stored to a register takes effect at the `fence` (20 R122). -/
theorem NamesReg.sw_fence (h : NamesReg s.cfg (s.reg rs1 + imm.signExtend 32) r)
    (hready : DeviceReady s .store (s.reg rs1 + imm.signExtend 32) .word) (hw : r.writeWidth s.isV3A .word = true)
    (href : s.writeRefusal r (s.reg rs2) = none) (hres : r.resets s.isV3A .word (s.reg rs2) = false)
    (fm pred succ : BitVec 4) (f1 f2 : Reg) :
    ∃ t, exec (.sw rs2 rs1 imm) s = .next t ∧
      exec (.fence fm pred succ f1 f2) t =
        .next (State.advance { State.devEffect { s with pc := s.pc + 4#32 } r .word 0 (s.reg rs2) with unseen := [] } 4#32) := by
  refine ⟨_, (exec_sw ..).trans (h.storeFrom hready hw href hres), ?_⟩
  rw [exec_fence, execFence]
  exact congrArg (fun u : State => Host.Outcome.next (State.advance { u with unseen := [] } 4#32)) (h.drainAll hready.drained _)

/-- A store to one of the banks of set and clear registers, seen after the `fence`: the enable and pending bits of the effect, and
nothing else. -/
theorem NamesReg.sw_fence_bits (h : NamesReg s.cfg (s.reg rs1 + imm.signExtend 32) r)
    (hready : DeviceReady s .store (s.reg rs1 + imm.signExtend 32) .word) (hw : r.writeWidth s.isV3A .word = true)
    (href : s.writeRefusal r (s.reg rs2) = none) (hres : r.resets s.isV3A .word (s.reg rs2) = false)
    (fm pred succ : BitVec 4) (f1 f2 : Reg) {effect : State → Prop} {e : State}
    (he : State.devEffect { s with pc := s.pc + 4#32 } r .word 0 (s.reg rs2) = e)
    (hform : e = { s with
      pc := s.pc + 4#32, eventPending := e.eventPending, pfic := { s.pfic with en := e.pfic.en, pend := e.pfic.pend } })
    (heffect : effect (State.advance { e with unseen := [] } 4#32)) :
    ∃ t u, exec (.sw rs2 rs1 imm) s = .next t ∧ exec (.fence fm pred succ f1 f2) t = .next u ∧ effect u ∧
      u = { s with pc := s.pc + 8#32, eventPending := u.eventPending, unseen := [],
                   pfic := { s.pfic with en := u.pfic.en, pend := u.pfic.pend } } := by
  obtain ⟨t, ht, hu⟩ := h.sw_fence hready hw href hres fm pred succ f1 f2
  subst he
  have hpc : (State.devEffect { s with pc := s.pc + 4#32 } r .word 0 (s.reg rs2)).pc + 4#32 = s.pc + 8#32 := by
    rw [hform]
    exact BitVec.add_assoc ..
  refine ⟨t, _, ht, hu, heffect, ?_⟩
  unfold State.advance
  rw [hpc, hform]

end

theorem State.assertSources_bits (s : State) :
    s.assertSources = { s with eventPending := s.assertSources.eventPending,
                               pfic := { s.pfic with pend := s.assertSources.pfic.pend } } := by
  unfold State.assertSources
  split <;> rfl

section
variable (s : State) (x : BitVec 3) (v : Word) (n : IrqNum)

theorem State.en_ienr :
    (s.devEffect (.ienr x) .word 0 v).pfic.en.getLsbD n.toNat = true ↔
      s.pfic.en.getLsbD n.toNat = true ∨ ((n.extractLsb' 5 3 = x ∧ v.getLsbD (n.extractLsb' 0 5).toNat = true) ∧
        (n = 12#8 ∨ n = 14#8 ∨ 16 ≤ n.toNat)) := by
  show (s.pfic.en ||| (bankMask v x &&& programmableMask)).getLsbD n.toNat = true ↔ _
  rw [BitVec.getLsbD_or, Bool.or_eq_true, BitVec.getLsbD_and, Bool.and_eq_true, getLsbD_bankMask, getLsbD_programmableMask,
    isProgrammable_iff]

theorem State.en_irer :
    (s.devEffect (.irer x) .word 0 v).pfic.en.getLsbD n.toNat = true ↔
      s.pfic.en.getLsbD n.toNat = true ∧ ¬(n.extractLsb' 5 3 = x ∧ v.getLsbD (n.extractLsb' 0 5).toNat = true) := by
  show (s.pfic.en &&& ~~~bankMask v x).getLsbD n.toNat = true ↔ _
  have hn : n.toNat < 256 := n.isLt
  rw [BitVec.getLsbD_and, Bool.and_eq_true, ← getLsbD_bankMask, BitVec.getLsbD_not, decide_eq_true hn, Bool.true_and,
    Bool.not_eq_true', Bool.not_eq_true]

theorem State.pend_ipsr :
    (s.devEffect (.ipsr x) .word 0 v).pending n = true ↔
      s.pending n = true ∨ ((n.extractLsb' 5 3 = x ∧ v.getLsbD (n.extractLsb' 0 5).toNat = true) ∧
        (n = 2#8 ∨ n = 3#8 ∨ n = 12#8 ∨ n = 14#8 ∨ 16 ≤ n.toNat)) := by
  refine (State.pending_setPending s _ n).trans (or_congr_right ?_)
  rw [getLsbD_bankMask, getLsbD_pendableMask, isProgrammable_iff]

theorem State.pend_iprr :
    (s.devEffect (.iprr x) .word 0 v).pending n = true ↔
      (s.pending n = true ∧ ¬(n.extractLsb' 5 3 = x ∧ v.getLsbD (n.extractLsb' 0 5).toNat = true)) ∨ SourceAsserts s n := by
  refine (State.pending_assertSources _ n).trans (or_congr ?_ Iff.rfl)
  refine (State.pending_clearPending s _ n).trans (and_congr Iff.rfl ?_)
  rw [← getLsbD_bankMask, Bool.not_eq_true]

theorem State.en_iprr : (s.devEffect (.iprr x) .word 0 v).pfic.en = s.pfic.en :=
  congrArg (·.pfic.en) (State.assertSources_bits (s.clearPending (bankMask v x)))

theorem State.iprr_bits :
    s.devEffect (.iprr x) .word 0 v =
      { s with
        eventPending := (s.devEffect (.iprr x) .word 0 v).eventPending
        pfic := { s.pfic with
          en := (s.devEffect (.iprr x) .word 0 v).pfic.en, pend := (s.devEffect (.iprr x) .word 0 v).pfic.pend } } := by
  rw [State.en_iprr]
  exact State.assertSources_bits (s.clearPending (bankMask v x))

end

/-- The key of the pending bits with bit 4, EXCSET, asks that number 3 be pended (60 R546). -/
theorem State.cfgrRefusal_excset {s : State} {v : Word} (hkey : v.extractLsb' 16 16 = 0xBCAF#16) (hbits : v.extractLsb' 2 4 = 4#4) :
    s.cfgrRefusal v = some .softwarePendedExc := by
  have hbit (j : Nat) (hj : j < 4) : v.getLsbD (2 + j) = (4#4).getLsbD j := by
    rw [← hbits, BitVec.getLsbD_extractLsb', decide_eq_true hj, Bool.true_and]
  have h2 : v.getLsbD 2 = false := hbit 0 (by decide)
  have h3 : v.getLsbD 3 = false := hbit 1 (by decide)
  have h4 : v.getLsbD 4 = true := hbit 2 (by decide)
  have h5 : v.getLsbD 5 = false := hbit 3 (by decide)
  simp only [State.cfgrRefusal, hkey, h2, h3, h4, h5]
  rfl

theorem DevReg.writeWidth_word {r : DevReg} (h : r.isCounter = false) (v3a : Bool) : r.writeWidth v3a .word = true := by
  simp [DevReg.writeWidth, h]

/-- Settles O29. -/
theorem pficWrites : Obligations.PficWrites := by
  intro s rs2 rs1 imm x fm pred succ f1 f2 a sel programmable en pend after
  let s' : State := { s with pc := s.pc + 4#32 }
  have hw {r : DevReg} (h : r.isCounter = false) : r.writeWidth s.isV3A .word = true := DevReg.writeWidth_word h _
  refine ⟨fun ha hready => ?ienr, fun ha hready => ?irer, fun h3 ha hready => ?ipsr, fun h3 ha hready => ?refused3,
    fun hv ha hkey hbits hready => ?refusedCfgr, fun ha hready => ?iprr⟩
  case ienr =>
    have hnames : NamesReg s.cfg a (.ienr x) := ha ▸ namesReg_ienr s.cfg x
    exact NamesReg.sw_fence_bits hnames hready (hw rfl) rfl rfl fm pred succ f1 f2 rfl rfl
      ⟨State.en_ienr s' x (s.reg rs2), fun n => Iff.rfl⟩
  case irer =>
    have hnames : NamesReg s.cfg a (.irer x) := ha ▸ namesReg_irer s.cfg x
    exact NamesReg.sw_fence_bits hnames hready (hw rfl) rfl rfl fm pred succ f1 f2 rfl rfl
      ⟨State.en_irer s' x (s.reg rs2), fun n => Iff.rfl⟩
  case ipsr =>
    have hnames : NamesReg s.cfg a (.ipsr x) := ha ▸ namesReg_ipsr s.cfg x
    have href : s.writeRefusal (.ipsr x) (s.reg rs2) = none := if_neg fun h => h3 ⟨h.1.symm, h.2⟩
    refine NamesReg.sw_fence_bits hnames hready (hw rfl) href rfl fm pred succ f1 f2 rfl rfl
      ⟨fun n => Iff.rfl, fun n => (State.pend_ipsr s' x (s.reg rs2) n).trans (or_congr_right ?_)⟩
    refine ⟨fun ⟨hs, hp⟩ => ⟨hs, hp.imp_right (Or.resolve_left · ?_)⟩, fun ⟨hs, hp⟩ => ⟨hs, hp.imp_right .inr⟩⟩
    rintro rfl
    exact h3 hs
  case refused3 =>
    obtain ⟨hx, hbit⟩ := h3
    have hnames : NamesReg s.cfg a (.ipsr 0#3) := ha ▸ namesReg_ipsr s.cfg 0#3
    have href : s.writeRefusal (.ipsr 0#3) (s.reg rs2) = some .softwarePendedExc := if_pos ⟨rfl, hbit⟩
    exact (exec_sw ..).trans (hnames.storeFrom_refused hready (hw rfl) href)
  case refusedCfgr =>
    have hnames : NamesReg s.cfg a .cfgr := ha ▸ namesReg_cfgr hv
    exact (exec_sw ..).trans (hnames.storeFrom_refused hready (hw rfl) (State.cfgrRefusal_excset hkey hbits))
  case iprr =>
    have hnames : NamesReg s.cfg a (.iprr x) := ha ▸ namesReg_iprr s.cfg x
    refine NamesReg.sw_fence_bits hnames hready (hw rfl) rfl rfl fm pred succ f1 f2 rfl
      (State.iprr_bits s' x (s.reg rs2)) ⟨fun n => iff_of_eq ?_, State.pend_iprr s' x (s.reg rs2)⟩
    exact congrArg (fun b : BitVec 256 => b.getLsbD n.toNat = true) (State.en_iprr s' x (s.reg rs2))

end Sys2Proof.Machine
end

section
/-! PROOFS. The read-write device registers, stored to and read back (60 R544 to R549, R555, R556; 61 R601, R603, R604). -/

namespace Sys2Proof.Machine
open Sys2Proof

/-- A word stored to a register is what the next load finds there (20 R124). -/
theorem NamesReg.sw_lw {s : State} {rs2 rs1 rd : Reg} {imm : BitVec 12} {r : DevReg} {x : Word}
    (h : NamesReg s.cfg (s.reg rs1 + imm.signExtend 32) r)
    (hready : DeviceReady s .store (s.reg rs1 + imm.signExtend 32) .word)
    (hp : s.pmpOk .load (Width.word.addrs (s.reg rs1 + imm.signExtend 32)) = true)
    (ht : s.triggered .load (s.reg rs1 + imm.signExtend 32) = .pass) (hw : r.writeWidth s.isV3A .word = true)
    (href : s.writeRefusal r (s.reg rs2) = none) (hres : r.resets s.isV3A .word (s.reg rs2) = false)
    (hdraw : ∀ u : State, u.devReadDraws r = false)
    (hval : (State.devEffect { s with pc := s.pc + 4#32 } r .word 0 (s.reg rs2)).devWord r = x) :
    ∃ t u, exec (.sw rs2 rs1 imm) s = .next t ∧ exec (.lw rd rs1 imm) t = .next u ∧ Holds u rd x ∧ u.pc = s.pc + 8#32 ∧
      SameRegsBut s u rd ∧ SameBytes s u := by
  have hdrain := h.drainAll (v := s.reg rs2) hready.drained (s.pc + 4#32)
  have hdev := State.devEffect_device { s with pc := s.pc + 4#32 } r .word 0 (s.reg rs2)
  have hregs : (State.devEffect { s with pc := s.pc + 4#32 } r .word 0 (s.reg rs2)).regs = s.regs := by
    unfold DeviceOnly at hdev
    rw [hdev]
  have hpc : (State.devEffect { s with pc := s.pc + 4#32 } r .word 0 (s.reg rs2)).pc = s.pc + 4#32 := by
    unfold DeviceOnly at hdev
    rw [hdev]
  have hload := NamesReg.loadTo (rd := rd) (n := 4#32)
    (s := { s with deviceQueue := [⟨s.reg rs1 + imm.signExtend 32, .word, s.reg rs2⟩], pc := s.pc + 4#32 }) h hp ht (hdraw _)
  rw [hdrain, hval] at hload
  obtain ⟨u, hu, heff⟩ := State.writeBack_effect (State.devEffect { s with pc := s.pc + 4#32 } r .word 0 (s.reg rs2)) rd x 4#32
  refine ⟨_, u, (exec_sw ..).trans (h.storeFrom hready hw href hres), (exec_lw ..).trans (hload.trans hu), heff.result, ?_,
    fun j hj => (heff.others j hj).trans (State.reg_congr hregs j), fun b => (heff.memory b).trans (State.byteAt_congr hdev.mem_eq b)⟩
  rw [heff.pc, hpc]
  exact BitVec.add_assoc ..

/-! ### What each register keeps of a word -/

section
variable (v : Word)

theorem threshold_kept (c : Bool) :
    (v.extractLsb' 0 8 &&& (if c then 0xF0#8 else 0xE0#8)).setWidth 32 = v &&& (if c then 0xF0#32 else 0xE0#32) := by
  refine BitVec.eq_of_getLsbD_eq fun i hi => ?_
  cases c <;> interval_cases i <;> simp

theorem vtfBase_kept : fieldAt 32 (v.extractLsb' 28 4) 28 = v &&& 0xF0000000#32 := by
  refine BitVec.eq_of_getLsbD_eq fun i hi => ?_
  simp only [BitVec.getLsbD_and, getLsbD_fieldAt _ _ _ hi]
  interval_cases i <;> simp

theorem cfgr_kept : flagAt (v.getLsbD 1) 1 ||| flagAt (v.getLsbD 0) 0 = v &&& 3#32 := by
  refine BitVec.eq_of_getLsbD_eq fun i hi => ?_
  simp only [BitVec.getLsbD_and, BitVec.getLsbD_or, getLsbD_flagAt _ _ _ hi]
  interval_cases i <;> simp

theorem sctlr_kept :
    flagAt (v.getLsbD 4) 4 ||| flagAt (v.getLsbD 3) 3 ||| flagAt (v.getLsbD 2) 2 ||| flagAt (v.getLsbD 1) 1 = v &&& 0x1E#32 := by
  refine BitVec.eq_of_getLsbD_eq fun i hi => ?_
  simp only [BitVec.getLsbD_and, BitVec.getLsbD_or, getLsbD_flagAt _ _ _ hi]
  interval_cases i <;> simp

theorem stkCtlr_kept_v3a : flagAt (v.getLsbD 0) 0 = v &&& 1#32 := by
  refine BitVec.eq_of_getLsbD_eq fun i hi => ?_
  simp only [BitVec.getLsbD_and, getLsbD_flagAt _ _ _ hi]
  interval_cases i <;> simp

theorem stkCtlr_kept :
    flagAt (v.getLsbD 4) 4 ||| flagAt (v.getLsbD 3) 3 ||| flagAt (v.getLsbD 2) 2 ||| flagAt (v.getLsbD 1) 1 |||
      flagAt (v.getLsbD 0) 0 = v &&& 0x1F#32 := by
  refine BitVec.eq_of_getLsbD_eq fun i hi => ?_
  simp only [BitVec.getLsbD_and, BitVec.getLsbD_or, getLsbD_flagAt _ _ _ hi]
  interval_cases i <;> simp

theorem and_allOnes_word : v &&& 0xFFFFFFFF#32 = v := BitVec.and_allOnes

theorem mergeLanes_word (old : Word) : mergeLanes old .word 0 v = v := by
  simp [mergeLanes, Width.cut]

theorem priorities_kept (c : Bool) :
    assemble [v.extractLsb' 0 8 &&& (if c then 0xF0#8 else 0xE0#8), v.extractLsb' 8 8 &&& (if c then 0xF0#8 else 0xE0#8),
      v.extractLsb' 16 8 &&& (if c then 0xF0#8 else 0xE0#8), v.extractLsb' 24 8 &&& (if c then 0xF0#8 else 0xE0#8)] =
      v &&& (if c then 0xF0F0F0F0#32 else 0xE0E0E0E0#32) := by
  rw [assemble_word]
  refine BitVec.eq_of_getLsbD_eq fun i hi => ?_
  simp only [BitVec.getLsbD_setWidth, BitVec.getLsbD_append, BitVec.getLsbD_and]
  cases c <;> interval_cases i <;> simp

end

/-! ### Priority bytes -/

theorem State.prioOf_setPrio_same (s : State) (n : IrqNum) (b : Byte) : (s.setPrio n b).prioOf n = b &&& s.prioMask :=
  Vector.getElem_set_self _

theorem State.prioOf_setPrio_other (s : State) {n m : IrqNum} (h : n ≠ m) (b : Byte) : (s.setPrio n b).prioOf m = s.prioOf m :=
  Vector.getElem_set_ne n.isLt m.isLt fun he => h (BitVec.eq_of_toNat_eq he)

theorem State.prioMask_setPrio (s : State) (n : IrqNum) (b : Byte) : (s.setPrio n b).prioMask = s.prioMask := rfl

/-- The four numbers of a priority word. -/
theorem lanes_distinct (k : BitVec 6) :
    fieldAt 8 k 2 ||| 1#8 ≠ fieldAt 8 k 2 ∧ fieldAt 8 k 2 ||| 2#8 ≠ fieldAt 8 k 2 ∧ fieldAt 8 k 2 ||| 3#8 ≠ fieldAt 8 k 2 ∧
      fieldAt 8 k 2 ||| 2#8 ≠ fieldAt 8 k 2 ||| 1#8 ∧ fieldAt 8 k 2 ||| 3#8 ≠ fieldAt 8 k 2 ||| 1#8 ∧
        fieldAt 8 k 2 ||| 3#8 ≠ fieldAt 8 k 2 ||| 2#8 := by
  revert k
  decide

theorem State.readIprior_writeIprior (s : State) (k : BitVec 6) (v : Word) :
    (s.writeIprior k .word 0 v).readIprior k = v &&& (if s.isV3A then 0xF0F0F0F0#32 else 0xE0E0E0E0#32) := by
  obtain ⟨h10, h20, h30, h21, h31, h32⟩ := lanes_distinct k
  have hwrite : s.writeIprior k .word 0 v =
      (((s.setPrio (fieldAt 8 k 2) (v.extractLsb' 0 8)).setPrio (fieldAt 8 k 2 ||| 1#8) (v.extractLsb' 8 8)).setPrio
        (fieldAt 8 k 2 ||| 2#8) (v.extractLsb' 16 8)).setPrio (fieldAt 8 k 2 ||| 3#8) (v.extractLsb' 24 8) := rfl
  rw [← priorities_kept, State.readIprior, hwrite]
  simp only [State.prioOf_setPrio_same, State.prioMask_setPrio, State.prioOf_setPrio_other _ h10, State.prioOf_setPrio_other _ h20,
    State.prioOf_setPrio_other _ h30, State.prioOf_setPrio_other _ h21, State.prioOf_setPrio_other _ h31,
    State.prioOf_setPrio_other _ h32]
  rfl

/-! ### Registers with a rule of their own -/

theorem State.devWord_writeCfgr {s : State} {v : Word} (hkey : v.extractLsb' 16 16 = 0xFA05#16) (hbit : v.getLsbD 6 = false) :
    (s.writeCfgr v).devWord .cfgr = v &&& 3#32 := by
  simp only [State.writeCfgr, hkey, if_true, hbit, Bool.false_eq_true, if_false]
  exact cfgr_kept v

theorem State.cfgrRefusal_none {s : State} {v : Word} (hkey : v.extractLsb' 16 16 = 0xFA05#16) (hbit : v.getLsbD 6 = false) :
    s.cfgrRefusal v = none := by
  simp only [State.cfgrRefusal, hkey, hbit]
  simp

theorem State.devWord_writeVtfAddr (s : State) (i : BitVec 2) (v : Word) :
    (s.writeVtfAddr i v).devWord (.vtfaddrr i) = v &&& (if s.isV3A then 0xFF0FFFFF#32 else 0xFFFFFFFF#32) := by
  have hset : (s.writeVtfAddr i v).devWord (.vtfaddrr i) = if s.isV3A then v &&& 0xFF0FFFFF#32 else v :=
    Vector.getElem_set_self i.isLt
  rw [hset]
  split
  · rfl
  · exact (and_allOnes_word v).symm

theorem State.devWord_writeStkCtlr (s : State) (v : Word) :
    (s.writeStkCtlr v).assertSources.devWord .stkCtlr = v &&& (if s.isV3A then 1#32 else 0x1F#32) := by
  rw [State.assertSources_bits]
  cases hv : s.isV3A with
  | true =>
    have hword : (s.writeStkCtlr v).devWord .stkCtlr = flagAt (v.getLsbD 0) 0 := by
      rw [State.writeStkCtlr, if_pos hv]
      exact if_pos hv
    exact hword.trans (stkCtlr_kept_v3a v)
  | false =>
    have hword : (s.writeStkCtlr v).devWord .stkCtlr =
        flagAt (v.getLsbD 4) 4 ||| flagAt (v.getLsbD 3) 3 ||| flagAt (v.getLsbD 2) 2 ||| flagAt (v.getLsbD 1) 1 |||
          flagAt (v.getLsbD 0) 0 := by
      rw [State.writeStkCtlr, if_neg (hv ▸ Bool.false_ne_true)]
      exact if_neg (hv ▸ Bool.false_ne_true)
    exact hword.trans (stkCtlr_kept v)

theorem resets_sctlr {c : Bool} {v : Word} (h : c = true ∨ v.getLsbD 31 = false) : DevReg.resets c .sctlr .word v = false := by
  unfold DevReg.resets
  obtain h | h := h <;> simp only [h, Bool.not_true, Bool.false_and, Bool.and_false]

theorem resets_cfgr {c : Bool} {v : Word} (h : v.extractLsb' 16 16 = 0xFA05#16) : DevReg.resets c .cfgr .word v = false := by
  unfold DevReg.resets
  rw [h]
  rfl

/-- Settles O30. -/
theorem deviceReadBack : Obligations.DeviceReadBack := by
  intro s rs2 rs1 rd imm i k a v back
  have hw {r : DevReg} (h : r.isCounter = false) : r.writeWidth s.isV3A .word = true := DevReg.writeWidth_word h _
  refine ⟨fun ha hready hp ht => ?ithresdr, fun hv ha hready hp ht => ?vtfbaddrr, fun hv hkey hbit ha hready hp ht => ?cfgr,
    fun hv ha hready hp ht => ?vtfidr, fun ha hready hp ht => ?vtfaddrr, fun ha hready hp ht => ?iprior,
    fun hv ha hready hp ht => ?sctlr, fun ha hready hp ht => ?stkCtlr, fun hv ha hready hp ht => ?stkCntl,
    fun hv ha hready hp ht => ?stkCmplr⟩
  case ithresdr =>
    have hnames : NamesReg s.cfg a .ithresdr := ha ▸ namesReg_ithresdr s.cfg
    exact hnames.sw_lw hready hp ht (hw rfl) rfl rfl (fun _ => rfl) (threshold_kept ..)
  case vtfbaddrr =>
    have hnames : NamesReg s.cfg a .vtfbaddrr := ha ▸ namesReg_vtfbaddrr hv
    exact hnames.sw_lw hready hp ht (hw rfl) rfl rfl (fun _ => rfl) (vtfBase_kept ..)
  case cfgr =>
    have hnames : NamesReg s.cfg a .cfgr := ha ▸ namesReg_cfgr hv
    exact hnames.sw_lw hready hp ht (hw rfl) (State.cfgrRefusal_none hkey hbit) (resets_cfgr hkey) (fun _ => rfl)
      (State.devWord_writeCfgr hkey hbit)
  case vtfidr =>
    have hnames : NamesReg s.cfg a .vtfidr := ha ▸ namesReg_vtfidr hv
    exact hnames.sw_lw hready hp ht (hw rfl) rfl rfl (fun _ => rfl) ((assemble_bytes ..).trans (and_allOnes_word v).symm)
  case vtfaddrr =>
    have hnames : NamesReg s.cfg a (.vtfaddrr i) := ha ▸ namesReg_vtfaddrr s.cfg i
    exact hnames.sw_lw hready hp ht (hw rfl) rfl rfl (fun _ => rfl) (State.devWord_writeVtfAddr ..)
  case iprior =>
    have hnames : NamesReg s.cfg a (.iprior k) := ha ▸ namesReg_iprior s.cfg k
    exact hnames.sw_lw hready hp ht (hw rfl) rfl rfl (fun _ => rfl) (State.readIprior_writeIprior ..)
  case sctlr =>
    have hnames : NamesReg s.cfg a .sctlr := ha ▸ namesReg_sctlr s.cfg
    exact hnames.sw_lw hready hp ht (hw rfl) rfl (resets_sctlr hv) (fun _ => rfl) (sctlr_kept v)
  case stkCtlr =>
    have hnames : NamesReg s.cfg a .stkCtlr := ha ▸ namesReg_stkCtlr s.cfg
    exact hnames.sw_lw hready hp ht (hw rfl) rfl rfl (fun _ => rfl) (State.devWord_writeStkCtlr ..)
  case stkCntl =>
    have hnames : NamesReg s.cfg a .stkCntl := ha ▸ namesReg_stkCntl hv
    exact hnames.sw_lw hready hp ht (by rw [hv]; rfl) rfl rfl (fun _ => rfl)
      ((mergeLanes_word ..).trans (and_allOnes_word v).symm)
  case stkCmplr =>
    have hnames : NamesReg s.cfg a .stkCmplr := ha ▸ namesReg_stkCmplr hv
    exact hnames.sw_lw hready hp ht (by rw [hv]; rfl) rfl rfl (fun _ => rfl)
      ((mergeLanes_word ..).trans (and_allOnes_word v).symm)

end Sys2Proof.Machine
end

section
/-! PROOFS. The hardware triggers (61 R634), and what loads and stores do on the same state with the triggers off. -/

namespace Sys2Proof.Machine
open Sys2Proof

/-! ### The answer of the triggers -/

theorem TriggerChannel.watches_iff (c : TriggerChannel) (p : Priv) (k : AccessKind) :
    c.watches p k = true ↔ ChannelWatches c p k := by
  cases p <;> cases k <;> simp [TriggerChannel.watches, ChannelWatches]

theorem div_two_pow_eq_iff (v w : Word) (n : Nat) :
    v.toNat / 2 ^ (n + 1) = w.toNat / 2 ^ (n + 1) ↔ ∀ j, n < j → v.getLsbD j = w.getLsbD j := by
  constructor
  · intro h j hj
    have hbit := congrArg (fun x => x.testBit (j - (n + 1))) h
    simp only [Nat.testBit_div_two_pow, BitVec.testBit_toNat] at hbit
    rwa [show j - (n + 1) + (n + 1) = j by omega] at hbit
  · intro h
    refine Nat.eq_of_testBit_eq fun m => ?_
    simp only [Nat.testBit_div_two_pow, BitVec.testBit_toNat]
    exact h _ (by omega)

theorem exists_zero_of_ne_allOnes {w : Word} (h : w ≠ 0xFFFFFFFF#32) :
    ∃ n < 32, w.getLsbD n = false ∧ ∀ j < n, w.getLsbD j = true := by
  have hex : ∃ n, w.getLsbD n = false := ⟨32, BitVec.getLsbD_of_ge w 32 (Nat.le_refl _)⟩
  have hones (j : Nat) (hj : j < Nat.find hex) : w.getLsbD j = true := Bool.eq_true_of_not_eq_false (Nat.find_min hex hj)
  refine ⟨Nat.find hex, ?_, Nat.find_spec hex, hones⟩
  by_contra hge
  refine h (BitVec.eq_of_getLsbD_eq fun i hi => ?_)
  rw [hones i (by omega)]
  interval_cases i <;> rfl

theorem TriggerChannel.hits_iff {c : TriggerChannel} (h : c.range = true → c.tdata2 ≠ 0xFFFFFFFF#32) (v : Word) :
    c.hits v = true ↔ ChannelHits c v := by
  unfold TriggerChannel.hits ChannelHits
  cases hr : c.range with
  | false => simp
  | true =>
    obtain ⟨n, hn, hzero, hones⟩ := exists_zero_of_ne_allOnes (h hr)
    simp only [if_true, decide_eq_true_eq, lowestZero_eq (Nat.le_of_lt hn) hones (.inr hzero), div_two_pow_eq_iff]
    refine ⟨fun hv => .inr ⟨trivial, n, hn, hzero, hones, hv⟩, fun hv => ?_⟩
    obtain ⟨hf, -⟩ | ⟨-, m, hm, hzero', hones', hv⟩ := hv
    · cases hf
    · have hmn : m = n := (lowestZero_eq (Nat.le_of_lt hm) hones' (.inr hzero')).symm.trans
        (lowestZero_eq (Nat.le_of_lt hn) hones (.inr hzero))
      exact hmn ▸ hv

/-- A trigger that fires with ACTION 0, and no channel that refuses. -/
theorem TriggerFires.triggered {s : State} {k : AccessKind} {v : Word} (h : TriggerFires s k v) : s.triggered k v = .fire := by
  obtain ⟨hv, hd, ⟨i, hwatch, hhit⟩, hall⟩ := h
  have hchannel {c : TriggerChannel} (hc : c ∈ s.trig.channel.toList) (hw : c.watches s.priv k = true) :
      (c.range = true → c.tdata2 ≠ 0xFFFFFFFF#32) ∧ (ChannelHits c v → c.action = false) := by
    obtain ⟨j, hj, rfl⟩ := List.getElem_of_mem hc
    have hj4 : j < 4 := by simpa using hj
    exact hall ⟨j, hj4⟩ ((TriggerChannel.watches_iff ..).mp hw)
  have hmem : s.trig.channel[i] ∈ s.trig.channel.toList := Vector.mem_toList_iff.mpr (Vector.getElem_mem i.isLt)
  have hones : (s.trig.channel.toList.filter (fun c => c.watches s.priv k)).any
      (fun c => c.range && c.tdata2 == 0xFFFFFFFF#32) = false := by
    simp only [List.any_eq_false, List.mem_filter, Bool.and_eq_true, beq_iff_eq, not_and]
    exact fun c hc hr => (hchannel hc.1 hc.2).1 hr
  have haction : ((s.trig.channel.toList.filter (fun c => c.watches s.priv k)).filter (fun c => c.hits v)).any
      (fun c => c.action) = false := by
    simp only [List.any_eq_false, List.mem_filter, Bool.not_eq_true]
    intro c hc
    obtain ⟨hrange, hact⟩ := hchannel hc.1.1 hc.1.2
    exact hact ((TriggerChannel.hits_iff hrange v).mp hc.2)
  have hsome : ((s.trig.channel.toList.filter (fun c => c.watches s.priv k)).filter (fun c => c.hits v)).isEmpty = false := by
    rw [List.isEmpty_eq_false_iff]
    refine List.ne_nil_of_mem (a := s.trig.channel[i]) ?_
    simp only [List.mem_filter]
    have hw := (TriggerChannel.watches_iff s.trig.channel[i] s.priv k).mpr hwatch
    exact ⟨⟨hmem, hw⟩, (TriggerChannel.hits_iff (hchannel hmem hw).1 v).mpr hhit⟩
  simp only [State.triggered, hv, hd, hones, haction, hsome, Bool.or_self, Bool.false_eq_true, if_false]

/-! ### The state with its triggers off -/

/-- The same state with no trigger armed. -/
def State.disarmed (s : State) : State := { s with trig := Triggers.reset }

section
variable {s t : State} {a v : Word} {w : Width}

theorem State.disarmed_triggered (s : State) (k : AccessKind) (x : Word) : s.disarmed.triggered k x = .pass := by
  have hnone : Triggers.reset.channel.toList.filter (fun c => c.watches s.priv k) = [] := by
    cases s.priv <;> cases k <;> rfl
  have hnone' : s.disarmed.trig.channel.toList.filter (fun c => c.watches s.disarmed.priv k) = [] := hnone
  simp [State.triggered, hnone']

theorem State.disarmed_devWord (s : State) (r : DevReg) : s.disarmed.devWord r = s.devWord r := by
  cases r <;> rfl

theorem State.disarmed_devReadDraws (s : State) (r : DevReg) : s.disarmed.devReadDraws r = s.devReadDraws r := by
  cases r <;> rfl

theorem State.disarmed_bytesAt (s : State) (as : List Word) : s.disarmed.bytesAt as = s.bytesAt as :=
  State.bytesAt_congr as fun _ => rfl

/-- A load changes nothing but the draw counter where no device write is outstanding. -/
def DrawsOnly (s t : State) : Prop := t = { s with draws := t.draws }

theorem State.disarmed_devLoad (hq : s.deviceQueue = []) (h : s.devLoad a w = .ok (v, t)) :
    DrawsOnly s t ∧ s.disarmed.devLoad a w = .ok (v, t.disarmed) := by
  have hq' : s.disarmed.deviceQueue = [] := hq
  have hcfg : s.disarmed.cfg = s.cfg := rfl
  simp only [State.devLoad, State.drainAll_nil hq] at h
  simp only [State.devLoad, State.drainAll_nil hq', hcfg]
  cases hr : devRegAt s.cfg (wordAddr a) with
  | none =>
    rw [hr] at h
    cases h
  | some r =>
    rw [hr] at h
    dsimp only at h ⊢
    rw [State.disarmed_devWord, State.disarmed_devReadDraws]
    split at h
    case isFalse => cases h
    case isTrue hread =>
      rw [if_pos hread]
      cases h
      split <;> exact ⟨rfl, rfl⟩

theorem State.disarmed_loadAligned (hq : s.deviceQueue = []) (h : s.loadAligned a w = .ok (v, t)) :
    DrawsOnly s t ∧ s.disarmed.loadAligned a w = .ok (v, t.disarmed) := by
  have hpmp : s.disarmed.pmpOk .load (w.addrs a) = s.pmpOk .load (w.addrs a) := rfl
  have htarget : s.disarmed.target (w.addrs a) = s.target (w.addrs a) := rfl
  unfold State.loadAligned at h ⊢
  rw [hpmp, htarget, State.disarmed_bytesAt]
  split at h
  case isTrue => cases h
  case isFalse hp =>
    rw [if_neg hp]
    cases ht : s.target (w.addrs a) with
    | device =>
      rw [ht] at h
      exact State.disarmed_devLoad hq h
    | platform | nothing =>
      rw [ht] at h
      cases h
    | rom | ram =>
      rw [ht] at h
      cases hb : s.bytesAt (w.addrs a) with
      | error e =>
        rw [hb] at h
        cases h
      | ok bs =>
        rw [hb] at h
        cases h
        exact ⟨rfl, rfl⟩

theorem DrawsOnly.trans {u : State} (h : DrawsOnly s t) (h' : DrawsOnly t u) : DrawsOnly s u := by
  unfold DrawsOnly at h h' ⊢
  rw [h', h]

theorem DrawsOnly.deviceQueue (h : DrawsOnly s t) : t.deviceQueue = s.deviceQueue := by
  unfold DrawsOnly at h
  rw [h]

theorem State.disarmed_loadBytes (as : List Word) {bs : List Byte} (hq : s.deviceQueue = []) (h : s.loadBytes as = .ok (bs, t)) :
    DrawsOnly s t ∧ s.disarmed.loadBytes as = .ok (bs, t.disarmed) := by
  induction as generalizing s bs with
  | nil =>
    cases h
    exact ⟨rfl, rfl⟩
  | cons b as ih =>
    rw [State.loadBytes] at h ⊢
    cases hl : s.loadAligned b .byte with
    | error e =>
      rw [hl] at h
      cases h
    | ok p =>
      obtain ⟨x, u⟩ := p
      rw [hl] at h
      dsimp only at h
      obtain ⟨hdraws, hdis⟩ := State.disarmed_loadAligned hq hl
      cases hr : u.loadBytes as with
      | error e =>
        rw [hr] at h
        cases h
      | ok q =>
        obtain ⟨xs, u'⟩ := q
        rw [hr] at h
        cases h
        obtain ⟨hdraws', hdis'⟩ := ih (hdraws.deviceQueue.trans hq) hr
        rw [hdis]
        dsimp only
        rw [hdis']
        exact ⟨hdraws.trans hdraws', rfl⟩

/-- A load that completes does so with the triggers off, with the same value. -/
theorem State.disarmed_load (hq : s.deviceQueue = []) (h : s.load a w = .ok (v, t)) :
    DrawsOnly s t ∧ s.disarmed.load a w = .ok (v, t.disarmed) := by
  have hcfg : s.disarmed.cfg = s.cfg := rfl
  unfold State.load at h ⊢
  rw [hcfg]
  split at h
  case isTrue hal =>
    rw [if_pos hal]
    exact State.disarmed_loadAligned hq h
  case isFalse hal =>
    rw [if_neg hal]
    cases hm : s.cfg.misaligned with
    | refuse | trap =>
      rw [hm] at h
      cases h
    | split =>
      rw [hm] at h
      dsimp only at h ⊢
      cases hl : s.loadBytes (w.addrs a) with
      | error e =>
        rw [hl] at h
        cases h
      | ok p =>
        obtain ⟨bs, u⟩ := p
        rw [hl] at h
        cases h
        obtain ⟨hdraws, hdis⟩ := State.disarmed_loadBytes _ hq hl
        rw [hdis]
        exact ⟨hdraws, rfl⟩

/-! ### Stores off the devices -/

/-- A store that reaches no device changes memory, what remembers it, and the reservation. -/
def StoredOnly (s t : State) : Prop :=
  t = { s with mem := t.mem, stale := t.stale, unseen := t.unseen, reservation := t.reservation, draws := t.draws }

theorem StoredOnly.trans {u : State} (h : StoredOnly s t) (h' : StoredOnly t u) : StoredOnly s u := by
  unfold StoredOnly at h h' ⊢
  rw [h', h]

theorem State.targetAt_ne_device {b : Word} (h : isCoreDevice s.cfg b = false) : s.targetAt b ≠ .device := by
  rw [State.targetAt, if_neg (h ▸ Bool.false_ne_true)]
  split <;> decide

theorem State.target_ne_device {as : List Word} (h : ∀ b ∈ as, isCoreDevice s.cfg b = false) : s.target as ≠ .device := by
  cases as with
  | nil => exact Target.noConfusion
  | cons b as =>
    show (if _ then s.targetAt b else .nothing) ≠ Target.device
    split
    · exact State.targetAt_ne_device (h b List.mem_cons_self)
    · exact Target.noConfusion

theorem State.disarmed_storeClears (s : State) (a : Word) : s.disarmed.storeClears a = (s.storeClears a).disarmed := by
  have hres : s.disarmed.reservation = s.reservation := rfl
  unfold State.storeClears
  rw [hres]
  cases s.reservation with
  | none => rfl
  | some r =>
    have hsame : s.disarmed.sameGranule r a = s.sameGranule r a := rfl
    dsimp only
    rw [hsame]
    split <;> rfl

theorem State.disarmed_storeAligned (hdev : ∀ b ∈ w.addrs a, isCoreDevice s.cfg b = false) (h : s.storeAligned a w v = .ok t) :
    StoredOnly s t ∧ s.disarmed.storeAligned a w v = .ok t.disarmed := by
  have hpmp : s.disarmed.pmpOk .store (w.addrs a) = s.pmpOk .store (w.addrs a) := rfl
  have htarget : s.disarmed.target (w.addrs a) = s.target (w.addrs a) := rfl
  unfold State.storeAligned at h ⊢
  rw [hpmp, htarget, State.disarmed_storeClears]
  split at h
  case isTrue => cases h
  case isFalse hp =>
    rw [if_neg hp]
    cases ht : s.target (w.addrs a) with
    | device => exact absurd ht (State.target_ne_device hdev)
    | platform | nothing | rom =>
      rw [ht] at h
      cases h
    | ram =>
      rw [ht] at h
      cases h
      refine ⟨?_, rfl⟩
      rw [State.storeClears_eq]
      rfl

theorem State.disarmed_storeBytes (as : List Word) (bs : List Byte) (hdev : ∀ b ∈ as, isCoreDevice s.cfg b = false)
    (h : s.storeBytes as bs = .ok t) : StoredOnly s t ∧ s.disarmed.storeBytes as bs = .ok t.disarmed := by
  induction as generalizing s bs with
  | nil =>
    cases bs <;> (cases h; exact ⟨rfl, rfl⟩)
  | cons b as ih =>
    cases bs with
    | nil =>
      cases h
      exact ⟨rfl, rfl⟩
    | cons x bs =>
      rw [State.storeBytes] at h ⊢
      cases hl : s.storeAligned b .byte (x.setWidth 32) with
      | error e =>
        rw [hl] at h
        cases h
      | ok u =>
        rw [hl] at h
        dsimp only at h
        have hhead : ∀ c ∈ Width.byte.addrs b, isCoreDevice s.cfg c = false := by
          simpa [Width.addrs] using hdev b List.mem_cons_self
        obtain ⟨honly, hdis⟩ := State.disarmed_storeAligned hhead hl
        have hcfg : u.cfg = s.cfg := by unfold StoredOnly at honly; rw [honly]
        obtain ⟨honly', hdis'⟩ := ih bs (fun c hc => hcfg ▸ hdev c (List.mem_cons_of_mem _ hc)) h
        rw [hdis]
        exact ⟨honly.trans honly', hdis'⟩

/-- A store that completes off the devices does so with the triggers off, with the same bytes. -/
theorem State.disarmed_store (hdev : ∀ b ∈ w.addrs a, isCoreDevice s.cfg b = false) (h : s.store a w v = .ok t) :
    StoredOnly s t ∧ s.disarmed.store a w v = .ok t.disarmed := by
  have hcfg : s.disarmed.cfg = s.cfg := rfl
  unfold State.store at h ⊢
  rw [hcfg]
  split at h
  case isTrue hal =>
    rw [if_pos hal]
    exact State.disarmed_storeAligned hdev h
  case isFalse hal =>
    rw [if_neg hal]
    cases hm : s.cfg.misaligned with
    | refuse | trap =>
      rw [hm] at h
      cases h
    | split =>
      rw [hm] at h
      dsimp only at h ⊢
      cases hl : s.storeBytes (w.addrs a) (w.bytes v) with
      | error e =>
        rw [hl] at h
        cases h
      | ok u =>
        rw [hl] at h
        cases h
        obtain ⟨honly, hdis⟩ := State.disarmed_storeBytes _ _ hdev hl
        rw [hdis]
        exact ⟨honly, rfl⟩

end

end Sys2Proof.Machine
end

section
/-! PROOFS. Breakpoints (60 R506): the breakpoint instructions, and the hardware triggers with ACTION 0. -/

namespace Sys2Proof.Machine
open Sys2Proof

/-! ### The breakpoint exception of an access -/

/-- What an access may have done when its breakpoint is raised (92 D53). -/
def AccessOnly (s d : State) : Prop :=
  d = { s with
    regs := d.regs, mem := d.mem, stale := d.stale, unseen := d.unseen, reservation := d.reservation, draws := d.draws }

/-- The breakpoint exception of the instruction at `pc`, its address in `mtval` (61 R634). -/
def Caught (s t : State) (target : Word) : Prop :=
  t.csr.mcause = 3#32 ∧ t.csr.mepc = s.pc ∧ t.csr.mtval = s.pc ∧ t.csr.mstatus.mpie = s.csr.mstatus.mie ∧
    t.csr.mstatus.mpp = s.priv ∧ t.priv = .machine ∧ t.pc = target ∧ t.nest = ⟨3#8, s.hpeEnabled, s.trapCsrs⟩ :: s.nest

section
variable {s d : State} {target : Word} {vec : IrqNum}

theorem AccessOnly.refl (s : State) : AccessOnly s s := rfl

theorem AccessOnly.drawn (h : AccessOnly s d) : AccessOnly s d.drawn := by
  unfold AccessOnly at h ⊢
  rw [h]
  rfl

theorem AccessOnly.setReg (h : AccessOnly s d) (rd : Reg) (v : Word) : AccessOnly s (d.setReg rd v) := by
  unfold AccessOnly at h ⊢
  rw [h]
  unfold State.setReg
  split <;> rfl

theorem DrawsOnly.access (h : DrawsOnly s d) : AccessOnly s d := by
  unfold DrawsOnly at h
  unfold AccessOnly
  rw [h]

theorem StoredOnly.access (h : StoredOnly s d) : AccessOnly s d := by
  unfold StoredOnly at h
  unfold AccessOnly
  rw [h]

/-- The vector table is read from memory. -/
theorem TargetIs.of_sameMemory (h : TargetIs s vec target) (hd : AccessOnly s d) (hm : d.mem = s.mem) : TargetIs d vec target := by
  have hbytes (as : List Word) : d.bytesAt as = s.bytesAt as := State.bytesAt_congr as (State.byteAt_congr hm)
  have hcsr : d.csr = s.csr := by unfold AccessOnly at hd; rw [hd]
  have hpmp : d.pmp = s.pmp := by unfold AccessOnly at hd; rw [hd]
  have hv : d.isV3A = s.isV3A := by unfold AccessOnly at hd; rw [hd]; rfl
  have ht (as : List Word) : d.target as = s.target as := by unfold AccessOnly at hd; rw [hd]; rfl
  unfold TargetIs at h ⊢
  dsimp only at h ⊢
  rw [hcsr, hpmp, hv, hbytes, ht]
  exact h

/-- The vectored and the direct mode do not read memory. -/
theorem TargetIs.of_mode1 (h : TargetIs s vec target) (hd : AccessOnly s d) (hmode : s.csr.mtvec.mode1 = false) :
    TargetIs d vec target := by
  have hcsr : d.csr = s.csr := by unfold AccessOnly at hd; rw [hd]
  unfold TargetIs at h ⊢
  rw [hcsr]
  obtain h | h | ⟨-, hone, -⟩ := h
  · exact .inl h
  · exact .inr (.inl h)
  · exact absurd (hmode.symm.trans hone) Bool.false_ne_true

theorem ExceptionReady.caught (h : ExceptionReady s 3#32 target) (hd : AccessOnly s d)
    (ht : TargetIs d (vectorOf s.isV3A 3#32) target) :
    ∃ t, d.raise .breakpoint s.pc = .next t ∧ Caught s t target ∧ (∀ j, t.reg j = d.reg j) ∧ SameBytes d t := by
  unfold AccessOnly at hd
  have hv : d.isV3A = s.isV3A := by rw [hd]; rfl
  have hready : ExceptionReady d 3#32 target := by
    refine ⟨?_, hv.symm ▸ ht⟩
    rw [hv]
    exact h.1.of_fields (by rw [hd]) (by rw [hd]) (by rw [hd]) (by rw [hd]) (by rw [hd])
  obtain ⟨t, hraise, htaken⟩ := hready.raise_taken (e := .breakpoint) (by decide) s.pc
  refine ⟨t, hraise, ⟨htaken.cause, htaken.epc.trans (by rw [hd]), htaken.value, htaken.mpie.trans (by rw [hd]),
    htaken.mpp.trans (by rw [hd]), htaken.priv, htaken.pc, htaken.nest.trans (by rw [hd]; rfl)⟩, htaken.regs, htaken.memory⟩

/-- A data breakpoint, the access performed or not. -/
theorem ExceptionReady.dataBreakpoint {o : Option State} (h : ExceptionReady s 3#32 target)
    (ho : ∀ u, o = some u → AccessOnly s u ∧ TargetIs u (vectorOf s.isV3A 3#32) target) :
    ∃ t, s.dataBreakpoint o = .next t ∧ Caught s t target ∧
      (((∀ j, t.reg j = s.reg j) ∧ SameBytes s t) ∨ ∃ u, o = some u ∧ (∀ j, t.reg j = u.reg j) ∧ SameBytes u t) := by
  cases o with
  | none =>
    obtain ⟨t, ht, hc, hregs, hmem⟩ := h.caught (AccessOnly.refl s) h.2
    exact ⟨t, ht, hc, .inl ⟨hregs, hmem⟩⟩
  | some u =>
    obtain ⟨honly, htarget⟩ := ho u rfl
    cases hf : Config.freeBool s.draws with
    | true =>
      obtain ⟨t, ht, hc, hregs, hmem⟩ := h.caught honly.drawn (htarget.of_sameMemory (d := u.drawn) (AccessOnly.refl u).drawn rfl)
      refine ⟨t, ?_, hc, .inr ⟨u, rfl, hregs, hmem⟩⟩
      rw [State.dataBreakpoint, hf]
      exact ht
    | false =>
      obtain ⟨t, ht, hc, hregs, hmem⟩ := h.caught (d := s.drawn) (AccessOnly.refl s).drawn h.2
      refine ⟨t, ?_, hc, .inl ⟨hregs, hmem⟩⟩
      rw [State.dataBreakpoint, hf]
      exact ht

/-! ### Loads and stores on which a trigger fires -/

theorem State.writeBack_reg_disarmed (u : State) (rd : Reg) (x n : Word) (j : Reg) :
    ((u.disarmed.setReg rd x).advance n).reg j = (u.setReg rd x).reg j := by
  refine State.reg_congr ?_ j
  unfold State.setReg
  split <;> rfl

/-- What a load on which a trigger fires leaves. -/
theorem load_caught {rd : Reg} {a n : Word} {w : Width} {ext : Word → Word} {i : Instr} (h : ExceptionReady s 3#32 target)
    (hs : exec i s = s.loadTo rd a w ext n) (hu : exec i s.disarmed = s.disarmed.loadTo rd a w ext n)
    (hfires : TriggerFires s .load a) :
    ∃ t, exec i s = .next t ∧ Caught s t target ∧ SameBytes s t ∧
      ((∀ j, t.reg j = s.reg j) ∨ ∃ v, exec i s.disarmed = .next v ∧ ∀ j, t.reg j = v.reg j) := by
  cases hl : s.load a w with
  | error e =>
    obtain ⟨t, ht, hc, hdone⟩ := h.dataBreakpoint (o := none) fun u hu => nomatch hu
    have he : exec i s = .next t := by simpa [hs, State.loadTo, hfires.triggered, hl] using ht
    obtain ⟨hregs, hmem⟩ | ⟨u, hu, -⟩ := hdone
    · exact ⟨t, he, hc, hmem, .inl hregs⟩
    · cases hu
  | ok p =>
    obtain ⟨x, u⟩ := p
    obtain ⟨hdraws, hdis⟩ := State.disarmed_load h.1.drained hl
    have honly : AccessOnly s (u.setReg rd (ext x)) := hdraws.access.setReg rd (ext x)
    have hmem : (u.setReg rd (ext x)).mem = s.mem := by
      rw [State.setReg_mem]
      unfold DrawsOnly at hdraws
      rw [hdraws]
    obtain ⟨t, ht, hc, hdone⟩ := h.dataBreakpoint (o := some (u.setReg rd (ext x))) fun d hd => by
      cases hd
      exact ⟨honly, h.2.of_sameMemory honly hmem⟩
    have he : exec i s = .next t := by simpa [hs, State.loadTo, hfires.triggered, hl] using ht
    obtain ⟨hregs, hbytes⟩ | ⟨d, hd, hregs, hbytes⟩ := hdone
    · exact ⟨t, he, hc, hbytes, .inl hregs⟩
    · cases hd
      have hv : exec i s.disarmed = .next ((u.disarmed.setReg rd (ext x)).advance n) := by
        rw [hu]
        simp [State.loadTo, State.disarmed_triggered, hdis, State.writeBack]
      exact ⟨t, he, hc, fun b => (hbytes b).trans (State.byteAt_congr hmem b), .inr ⟨_, hv, fun j =>
        (hregs j).trans (State.writeBack_reg_disarmed u rd (ext x) n j).symm⟩⟩

theorem store_caught {a v n : Word} {w : Width} {i : Instr} (h : ExceptionReady s 3#32 target)
    (hs : exec i s = s.storeFrom a w v n) (hu : exec i s.disarmed = s.disarmed.storeFrom a w v n)
    (hfires : TriggerFires s .store a) (hmode : s.csr.mtvec.mode1 = false)
    (hdev : ∀ b ∈ w.addrs a, isCoreDevice s.cfg b = false) :
    ∃ t, exec i s = .next t ∧ Caught s t target ∧ (∀ j, t.reg j = s.reg j) ∧
      (∀ b : Word, b ∉ w.addrs a → t.byteAt b = s.byteAt b) ∧
        (SameBytes s t ∨ ∃ u, exec i s.disarmed = .next u ∧ SameBytes u t) := by
  cases hl : s.store a w v with
  | error e =>
    have hnone : s.storeFrom a w v n = s.dataBreakpoint none := by
      cases e with
      | restart u =>
        obtain ⟨rfl, rfl, -⟩ := State.store_restart_at hl
        have hcore := hdev s.resetAddr (by simp [Width.addrs])
        rw [isCoreDevice_resetAddr] at hcore
        cases hcore
      | _ => simp [State.storeFrom, hfires.triggered, hl]
    obtain ⟨t, ht, hc, hdone⟩ := h.dataBreakpoint (o := none) fun u hu => nomatch hu
    obtain ⟨hregs, hmem⟩ | ⟨u, hu, -⟩ := hdone
    · exact ⟨t, hs.trans (hnone.trans ht), hc, hregs, fun b _ => hmem b, .inl hmem⟩
    · cases hu
  | ok u =>
    obtain ⟨honly, hdis⟩ := State.disarmed_store hdev hl
    have hdata := State.store_data hl
    obtain ⟨t, ht, hc, hdone⟩ := h.dataBreakpoint (o := some u) fun d hd => by
      cases hd
      exact ⟨honly.access, h.2.of_mode1 honly.access hmode⟩
    have he : exec i s = .next t := by simpa [hs, State.storeFrom, hfires.triggered, hl] using ht
    obtain ⟨hregs, hbytes⟩ | ⟨d, hd, hregs, hbytes⟩ := hdone
    · exact ⟨t, he, hc, hregs, fun b _ => hbytes b, .inl hbytes⟩
    · cases hd
      have hv : exec i s.disarmed = .next (u.disarmed.advance n) := by
        rw [hu]
        simp [State.storeFrom, State.disarmed_triggered, hdis]
      have hsame : u.regs = s.regs := by unfold StoredOnly at honly; rw [honly]
      exact ⟨t, he, hc, fun j => (hregs j).trans (State.reg_congr hsame j), fun b hb => (hbytes b).trans (hdata.frame b hb),
        .inr ⟨_, hv, hbytes⟩⟩

theorem notDevice_of_target {as : List Word} (h : s.target as = .ram) : ∀ b ∈ as, isCoreDevice s.cfg b = false := by
  have hram {b : Word} (hb : s.targetAt b = .ram) : isCoreDevice s.cfg b = false := by
    by_contra hdev
    rw [State.targetAt, if_pos (Bool.eq_true_of_not_eq_false hdev)] at hb
    cases hb
  cases as with
  | nil => cases h
  | cons a as =>
    unfold State.target at h
    dsimp only at h
    split at h
    case isFalse => cases h
    case isTrue hall =>
      intro b hb
      rcases List.mem_cons.mp hb with rfl | hb
      · exact hram h
      · exact hram ((beq_iff_eq.mp (List.all_eq_true.mp hall b hb)).trans h)

end

/-! ### Execute triggers and breakpoint instructions -/

theorem Undisturbed.free_of_disarmed {s : State} (h : Undisturbed s.disarmed) : BoundaryFree s :=
  ⟨h.env, h.quiet, h.notHeld, h.notHalted, h.noHaltRequest, h.awake, h.noExc, h.noInterrupt⟩

theorem step_caught {s : State} {target : Word} (h : ExceptionReady s 3#32 target) (hfree : Undisturbed s.disarmed)
    (hfires : TriggerFires s .fetch s.pc) :
    ∃ t, step s = afterStep (.next t) ∧ TrapTaken s.drawn t false 3#32 3#8 s.pc s.pc target := by
  have hready : ExceptionReady s.drawn 3#32 target := ⟨h.1.of_fields rfl rfl rfl rfl rfl, h.2⟩
  obtain ⟨t, hraise, htaken⟩ := hready.raise_taken (e := .breakpoint) (by decide) s.pc
  have hfire : s.drawn.triggered .fetch s.drawn.pc = .fire := hfires.triggered
  refine ⟨t, ?_, htaken⟩
  rw [hfree.free_of_disarmed.step_eq, State.runInstr, hfire]
  exact congrArg afterStep hraise

theorem exec_breakpoint {s : State} {i : Instr} (h : i = .ebreak ∨ i = .cEbreak) : exec i s = s.breakpoint := by
  obtain rfl | rfl := h
  · exact exec_ebreak s
  · exact exec_cEbreak s

theorem decode_cEbreak {c : Config} (h : KeepsParcel c 0x9002#16 16) : decode c (.half 0x9002#16) = .instr .cEbreak :=
  decode_half (by decide) (by decide) rfl
    (h.imp_right fun hx row hrow hmatch => Nat.le_trans (Nat.le_of_lt (hx row hrow hmatch)) (by decide))

/-- Settles O44. -/
theorem breakpoints : Obligations.Breakpoints := by
  intro s target i asked caught unarmed
  refine ⟨decode_full (by decide) rfl rfl, decode_cEbreak, fun hi => ?instruction, fun hready => ⟨fun hfree hfires => ?fetch,
    fun a w hr hf hfires => ?load, fun rd rs1 imm b0 b1 b2 b3 hfires hl => ?lw,
    fun a w hst hf hfires hmode hdev => ?store, fun rs2 rs1 imm hfires hs hmode => ?sw⟩⟩
  case instruction =>
    rw [exec_breakpoint hi]
    refine ⟨fun hd => if_pos hd, fun hd hask => ?_, fun hask hready => ?_⟩
    · refine ⟨s.enterDebug 1#3 s.pc, ?_, rfl, rfl, rfl, rfl, rfl, rfl⟩
      exact (if_neg (hd ▸ Bool.false_ne_true)).trans (if_pos hask)
    · have hhalts : s.ebreakHalts = false := hask
      have hraise : s.breakpoint = s.raise .breakpoint 0#32 :=
        (if_neg (hready.1.running ▸ Bool.false_ne_true)).trans (if_neg (hhalts ▸ Bool.false_ne_true))
      rw [hraise]
      exact hready.raise_taken (e := .breakpoint) (by decide) 0#32
  case fetch => exact step_caught hready hfree hfires
  case load =>
    obtain ⟨rd, b, off, ext, n, h, rfl⟩ := isLoad_of_loadsFrom hr hf
    exact load_caught hready (h.exec_eq s) (h.exec_eq s.disarmed) hfires
  case lw =>
    obtain ⟨t, ht, -, -, hdone⟩ := load_caught hready (exec_lw ..) (exec_lw rd rs1 imm s.disarmed) hfires
    obtain ⟨v, hv, heff⟩ := hl.writes (exec_lw rd rs1 imm s.disarmed) (assemble_word b0 b1 b2 b3)
    refine ⟨t, ht, ?_⟩
    obtain hregs | ⟨u, hu, hregs⟩ := hdone
    · exact ⟨fun j _ => hregs j, .inl (hregs rd)⟩
    · obtain rfl : u = v := Host.Outcome.next.inj (hu.symm.trans hv)
      exact ⟨fun j hj => (hregs j).trans (heff.others j hj), .inr ((hregs rd).trans heff.result)⟩
  case store =>
    obtain ⟨src, b, off, n, h, rfl⟩ := isStore_of_storesTo hst hf
    exact store_caught hready (h.exec_eq s) (h.exec_eq s.disarmed) hfires hmode hdev
  case sw =>
    obtain ⟨t, ht, -, -, hothers, hdone⟩ :=
      store_caught hready (exec_sw ..) (exec_sw rs2 rs1 imm s.disarmed) hfires hmode (notDevice_of_target hs.memory)
    obtain ⟨v, hv, hstored, -⟩ := hs.stores (exec_sw rs2 rs1 imm s.disarmed)
    refine ⟨t, ht, ?_⟩
    obtain hbytes | ⟨u, hu, hbytes⟩ := hdone
    · exact .inl hbytes
    · obtain rfl : u = v := Host.Outcome.next.inj (hu.symm.trans hv)
      exact .inr ⟨(State.bytesAt_congr _ hbytes).trans hstored.stored, hothers⟩

end Sys2Proof.Machine
end
